-- ==== Sys2Proof/Word.lean ====
section
/-! DEFINITION. The fixed widths of the block: 32-bit command words and pin identifiers, and the 24-bit
width of `maxSize`, message lengths and the cursor (00_scope.md R8, R11). -/

namespace Sys2Proof

/-- A header or payload word of a command, and a `DATASENT` response (00_scope.md R8). -/
abbrev Word := BitVec 32

/-- A pin identifier: an opaque 32-bit handle (10_state.md R23). -/
abbrev PinId := BitVec 32

/-- `LEN_WIDTH`: the 24-bit unsigned quantities (00_scope.md R11). -/
abbrev Imm24 := BitVec 24

/-- A line level; `true` is level 1 (00_scope.md R11, data level). -/
abbrev Level := Bool

end Sys2Proof
end

