-- ==== Sys2Proof/Config.lean ====
section
/-! DEFINITION. The implementation parameters of 00_scope.md R11. `MAX_BITS` and `LATCH_ACTIVE_LEVEL` are OPEN:
a model takes them as arguments, so they stand in the state as `Params`, and the machine's own values are constants
with no body (log 1). `CLOCK_PULSE_REALISATION` is an OPEN host-side function (log 2). -/

namespace Sys2Proof

/-- The OPEN parameters a state is run under. -/
structure Params where
  /-- `MAX_BITS - 1`, so that every value is a legal one: 1 ≤ `MAX_BITS` ≤ 2^24-1. -/
  maxBitsLessOne : Fin 16777215
  /-- `LATCH_ACTIVE_LEVEL`, written `A`. -/
  latchActive : Level
deriving DecidableEq, Repr

/-- `MAX_BITS`: the physical bit storage of each buffer slot. -/
def Params.maxBits (p : Params) : Nat := p.maxBitsLessOne.val + 1

/-- One level write of the host: `level` on `pin` at sub-frame `n`. -/
structure LevelWrite where
  pin : PinId
  n : Nat
  level : Level
deriving DecidableEq, Repr

/-- The implementation's `MAX_BITS - 1`: OPEN, no value of it can be proved. -/
opaque Config.maxBitsLessOne : Fin 16777215

/-- The implementation's `LATCH_ACTIVE_LEVEL`: OPEN. -/
opaque Config.latchActive : Level

/-- `CLOCK_PULSE_REALISATION`: the level writes by which the host realises one `ClockPulse(pin, n)`. OPEN. -/
opaque Config.clockPulseRealisation : PinId → Nat → List LevelWrite

/-- The parameters of the machine that `State.reset` describes. -/
def Config.params : Params :=
  { maxBitsLessOne := Config.maxBitsLessOne, latchActive := Config.latchActive }

end Sys2Proof
end

