-- ==== Sys2Proof/Syntax.lean ====
section
/-! DEFINITION. The five commands of the opcode table with their operands (30_encoding.md R71 to R76). -/

namespace Sys2Proof

/-- One constructor per row of the opcode table. -/
inductive Instr where
  /-- `SETUP`: `maxSize` (imm24) and the payload's data, clock and latch pins (R72, R90). -/
  | setup (maxSize : Imm24) (data clock latch : PinId)
  /-- `SETDATA`: the message, bit 0 first; `L` is its length (R73, R100). -/
  | setdata (bits : List Bool)
  /-- `DATASENT` (R74, R105). -/
  | datasent
  /-- `TICK`: the sub-frame index `n` (imm24); the frame context is not encoded (R75, R123). -/
  | tick (n : Imm24)
  /-- `PROCESS`; the frame context is not encoded (R76, R120). -/
  | process
deriving DecidableEq, Repr

/-- `TICK` and `PROCESS` take a frame context, which only the Host holds (00_scope.md R9, 60_exceptions.md R162). -/
def Instr.needsFrame : Instr → Bool
  | .setup _ _ _ _ => false
  | .setdata _ => false
  | .datasent => false
  | .tick _ => true
  | .process => true

end Sys2Proof
end

