-- ==== Sys2Proof/WellFormed.lean ====
section
/-! DEFINITION. Which commands the encoding can spell: a message length fits imm24 (30_encoding.md R70, R73, R77).
The other operands are held at their encoded width, so nothing is left to check about them. -/

namespace Sys2Proof

def Instr.wellFormed : Instr → Bool
  | .setup _ _ _ _ => true
  | .setdata bits => decide (bits.length < 16777216)
  | .datasent => true
  | .tick _ => true
  | .process => true

end Sys2Proof
end

