-- ==== Sys2Proof/Decode.lean ====
section
/-! DEFINITION. Decoding of a command's words, total and rejecting by name, and the encoder written from the same
tables (30_encoding.md R70 to R80). -/

namespace Sys2Proof

/-- What a legal header says: the command and its imm24 (30_encoding.md R71, R78). -/
inductive Form where
  | setup (maxSize : Imm24)
  | setdata (len : Imm24)
  | datasent
  | tick (n : Imm24)
  | process
deriving DecidableEq, Repr

/-- Why a word sequence is not a command. -/
inductive DecodeError where
  /-- The header spells no command: `ILLEGAL` of R78. -/
  | illegalCommand (header : Word)
  /-- No header word at all. -/
  | noHeader
  /-- Fewer payload words than the header asks for. -/
  | truncated (header : Word)
deriving DecidableEq, Repr

/-! ### Header fields (R70) -/

def opOf (h : Word) : BitVec 4 := h.extractLsb' 0 4

def rsvdOf (h : Word) : BitVec 4 := h.extractLsb' 4 4

def imm24Of (h : Word) : Imm24 := h.extractLsb' 8 24

/-- Format H: imm24 in bits 31:8, rsvd zero, op in bits 3:0 (R70, R72 to R76). -/
def packHeader (imm : Imm24) (op : Word) : Word := (imm.setWidth 32 <<< 8) ||| op

/-- The decoder of R78 on one header; `none` is its `ILLEGAL`. -/
def decodeHeader (h : Word) : Option Form :=
  if rsvdOf h ≠ 0#4 then none
  else if opOf h = 0x1#4 then some (.setup (imm24Of h))
  else if opOf h = 0x2#4 then some (.setdata (imm24Of h))
  else if opOf h = 0x3#4 then (if imm24Of h ≠ 0#24 then none else some .datasent)
  else if opOf h = 0x4#4 then some (.tick (imm24Of h))
  else if opOf h = 0x5#4 then (if imm24Of h ≠ 0#24 then none else some .process)
  else none

/-- `ceil(L / 32)` (R73). -/
def payloadCount (len : Nat) : Nat := (len + 31) / 32

/-- The number of payload words after a legal header (R71, R78). -/
def Form.payload : Form → Nat
  | .setup _ => 3
  | .setdata len => payloadCount len.toNat
  | .datasent => 0
  | .tick _ => 0
  | .process => 0

/-- The length of a command in words, from its header alone (R80). -/
def lengthWords (h : Word) : Nat :=
  if opOf h = 0x1#4 then 4
  else if opOf h = 0x2#4 then 1 + payloadCount (imm24Of h).toNat
  else 1

/-! ### Payload -/

/-- Message bit `k` is `P(k div 32)[k mod 32]` for `k < L` (R73); the other payload bits are not read. -/
def messageBits (len : Nat) (ps : List Word) : List Bool :=
  (List.range len).map fun k => (ps.getD (k / 32) 0#32).getLsbD (k % 32)

/-- A command from its header's form and its payload words (R72 to R76). -/
def assemble (f : Form) (ps : List Word) : Instr :=
  match f with
  | .setup maxSize => .setup maxSize (ps.getD 0 0#32) (ps.getD 1 0#32) (ps.getD 2 0#32)
  | .setdata len => .setdata (messageBits len.toNat ps)
  | .datasent => .datasent
  | .tick n => .tick n
  | .process => .process

/-- Decode the command at the front of a word sequence; the words after it are returned. After an `ILLEGAL` header
no payload word is read (R78). -/
def decode (ws : List Word) : Except DecodeError (Instr × List Word) :=
  match ws with
  | [] => .error .noHeader
  | h :: ps =>
    match decodeHeader h with
    | none => .error (.illegalCommand h)
    | some f =>
      if ps.length < f.payload then .error (.truncated h)
      else .ok (assemble f (ps.take f.payload), ps.drop f.payload)

/-! ### Encoder -/

/-- The header form of a command. -/
def Instr.form : Instr → Form
  | .setup maxSize _ _ _ => .setup maxSize
  | .setdata bits => .setdata (BitVec.ofNat 24 bits.length)
  | .datasent => .datasent
  | .tick n => .tick n
  | .process => .process

/-- The header word of a form (R72 to R76). -/
def Form.header : Form → Word
  | .setup maxSize => packHeader maxSize 0x1#32
  | .setdata len => packHeader len 0x2#32
  | .datasent => 0x00000003#32
  | .tick n => packHeader n 0x4#32
  | .process => 0x00000005#32

/-- The header word of a command, which a fault records (60_exceptions.md R152 to R155). -/
def Instr.header (i : Instr) : Word := i.form.header

/-- The number whose bit `k` is element `k`. -/
def bitsToNat : List Bool → Nat
  | [] => 0
  | b :: bs => b.toNat + 2 * bitsToNat bs

/-- Payload word `j` of a message: bits `32 j .. 32 j + 31`, with zeros past the end (R73). -/
def messageWord (bits : List Bool) (j : Nat) : Word :=
  BitVec.ofNat 32 (bitsToNat ((bits.drop (32 * j)).take 32))

/-- The payload words of a message (R73). -/
def packMessage (bits : List Bool) : List Word :=
  (List.range (payloadCount bits.length)).map (messageWord bits)

/-- The words of a command (R72 to R76). -/
def encode (i : Instr) : List Word :=
  match i with
  | .setup maxSize d c l => [(Instr.setup maxSize d c l).header, d, c, l]
  | .setdata bits => (Instr.setdata bits).header :: packMessage bits
  | .datasent => [Instr.datasent.header]
  | .tick n => [(Instr.tick n).header]
  | .process => [Instr.process.header]

/-! ### The opcode table's bit numbering -/

/-- The whole words of the command whose bits are `w`, bit 0 the least significant bit of the header: every bit from
`nbits` on is 0, up to the length the header gives. -/
def tableWords (nbits w : Nat) : List Word :=
  let v := w % 2 ^ nbits
  (List.range (lengthWords (BitVec.ofNat 32 v))).map fun k => BitVec.ofNat 32 (v >>> (32 * k))

/-- The command the decoder reads from table bits `w`. -/
def decodeTableWord (nbits w : Nat) : Option Instr :=
  match decode (tableWords nbits w) with
  | .ok (i, _) => some i
  | .error _ => none

end Sys2Proof
end

