-- ==== Sys2Proof/Machine/State.lean ====
section
/-! DEFINITION. The block's state as plain data: the table of 10_state.md R22, the two output sequences of
00_scope.md R15, and what the command interface holds; its reset value; and the ways a step can stop. -/

namespace Sys2Proof.Machine

/-- The two agents that issue commands (00_scope.md R7). -/
inductive Agent where
  | host
  | writer
deriving DecidableEq, Repr

/-- What the outside world lets happen next (20_memory.md R59, 70_reset_and_hazards.md R180; log 5, 11). -/
inductive Turn where
  /-- The Host's next step: its next tick of a `PROCESS` in progress, else its next command. -/
  | host
  /-- The Writer's next command. -/
  | writer
  /-- The block is reset. -/
  | reset
deriving DecidableEq, Repr

/-- The transmission state (10_state.md R30). -/
inductive TxState where
  | start
  | transmitting
  | stop
  | idle
deriving DecidableEq, Repr

/-- The causes of a model fault (10_state.md R32). -/
inductive Cause where
  | illegalCommand
  | notConfigured
  | frameOutOfRange
  | emptyMessage
  | lengthLimit
deriving DecidableEq, Repr

/-- The three pin identifiers (10_state.md R23). -/
structure Pins where
  data : PinId
  clock : PinId
  latch : PinId
deriving DecidableEq, Repr

/-- The event kinds of the output trace (00_scope.md R10). -/
inductive Event where
  /-- A request to place `pin` in output mode. -/
  | dirOut (pin : PinId)
  /-- A write of level `v` to `pin` at sub-frame `n`. -/
  | wr (pin : PinId) (n : Nat) (v : Level)
  /-- One complete pulse of the clock line at sub-frame `n`. -/
  | clockPulse (pin : PinId) (n : Nat)
  /-- `SETDATA` raised the capacity from `old` to `new` bits. -/
  | grow (old new : Imm24)
deriving DecidableEq, Repr

/-- A `DATASENT` response tagged with its issuing agent (00_scope.md R8, R15). -/
structure Response where
  agent : Agent
  word : Word
deriving DecidableEq, Repr

/-- A command as the Host delivers it: its words, whole, and its frame context `N` (00_scope.md R8, R9). -/
structure HostCommand where
  words : List Word
  frame : Nat
deriving DecidableEq, Repr

/-- The machine's state. -/
structure State where
  /-- The OPEN parameters the run is under; no step writes them (00_scope.md R11, log 1). -/
  params : Params
  /-- The bound pins (10_state.md R23). -/
  pins : Pins
  /-- A `SETUP` has completed since reset (R24). -/
  bound : Bool
  /-- The pins have been placed in output mode (R25). -/
  pinConfigured : Bool
  /-- The next tick configures the pins' direction (R26). -/
  dirPending : Bool
  /-- The bits reserved for a message (R27). -/
  capacity : Imm24
  /-- The live buffer (R28). -/
  buf : List Bool
  /-- The published message that no tick has adopted yet (R29). -/
  pending : Option (List Bool)
  /-- The transmission state (R30). -/
  state : TxState
  /-- How many bits have been shifted out (R31). -/
  cursor : Imm24
  /-- The model-fault register, `none` for code 0 (R32). -/
  fault : Option Cause
  /-- The output trace, oldest event first (00_scope.md R10). -/
  trace : List Event
  /-- The `DATASENT` responses, oldest first (00_scope.md R15). -/
  responses : List Response
  /-- The Host's issued commands that have not taken effect, in issue order (00_scope.md R7). -/
  hostQueue : List HostCommand
  /-- The Writer's issued commands that have not taken effect, each its words, in issue order (R7). -/
  writerQueue : List (List Word)
  /-- The order of the coming steps, as the outside world decides it (20_memory.md R59, log 5). -/
  turns : List Turn
  /-- The agent whose command is carried out, the tag of its response (00_scope.md R15). -/
  issuer : Agent
  /-- The frame context `N` of the Host's current command (00_scope.md R9). -/
  frame : Nat
  /-- The next sub-frame of a `PROCESS` in progress (42_process.md R121). -/
  batch : Option Nat
deriving DecidableEq, Repr

/-- What a model fault records (60_exceptions.md R151 to R155). All of them are SAFE: the model stops where the
source leaves the block's behaviour undefined (R19). -/
inductive Raised where
  /-- Raised by the command interface for a header that spells no command (R151). Safe. -/
  | illegalCommand (header : Word)
  /-- Raised by `TICK` and by a tick of a `PROCESS` while no `SETUP` has completed (R152). Safe. -/
  | notConfigured (header : Word) (n : Nat)
  /-- Raised by `TICK` whose index `n` is not below the frame count `N` (R153). Safe. -/
  | frameOutOfRange (n N : Nat)
  /-- Raised by `TICK` and by a tick of a `PROCESS` that would transmit a bit that does not exist (R154). Safe. -/
  | emptyMessage (header : Word) (n : Nat)
  /-- Raised by `SETUP` and `SETDATA` above `MAX_BITS` (R155). Safe. -/
  | lengthLimit (header : Word)
deriving DecidableEq, Repr

/-- The fault outcome of a step (60_exceptions.md R150). -/
inductive Fault where
  /-- A step reached `raise`: what it recorded, and the faulted state it leaves, in which nothing but the fault
  register differs from the state the command met. Raised by every command. Safe. -/
  | raised (r : Raised) (after : State)
  /-- A step was asked of a faulted state, which has none; `s` is that state. Raised by every command and by the
  command interface. Safe. -/
  | stuck (s : State)
deriving DecidableEq, Repr

/-- What the model turns away. No command that the spec gives a meaning is refused (00_scope.md R14). -/
inductive Refusal where
  /-- An instruction without a meaning, by its mnemonic. No arm of `exec` uses it. Safe. -/
  | notModelled (mnemonic : String)
  /-- Raised by the command interface for a delivery that is not exactly one whole command, which 00_scope.md R8 and
  20_memory.md R54 rule out (log 9). Safe. -/
  | notWhole (agent : Agent)
  /-- Raised by the command interface for a `TICK` or `PROCESS` from the Writer, which holds no frame context
  (00_scope.md R7, 60_exceptions.md R162; log 8). Safe. -/
  | noFrameContext
deriving DecidableEq, Repr

/-- The state right after reset under given parameters (10_state.md R22, 70_reset_and_hazards.md R180). The pins are
unspecified there; 0 is a DESIGN CHOICE (log 3). -/
def State.resetWith (p : Params) : State where
  params := p
  pins := { data := 0#32, clock := 0#32, latch := 0#32 }
  bound := false
  pinConfigured := false
  dirPending := false
  capacity := 0#24
  buf := []
  pending := none
  state := .idle
  cursor := 0#24
  fault := none
  trace := []
  responses := []
  hostQueue := []
  writerQueue := []
  turns := []
  issuer := .host
  frame := 0
  batch := none

/-- The machine right after reset, under the implementation's own parameters. -/
def State.reset : State := State.resetWith Config.params

end Sys2Proof.Machine
end

