-- ==== Sys2Proof/Machine/Ops.lean ====
section
/-! DEFINITION. The named operations on the state: emitting and responding (00_scope.md R13), the bit-buffer
accesses (20_memory.md R52, R53), raising a model fault and the reset that alone leaves it (60_exceptions.md R150,
70_reset_and_hazards.md R180). -/

namespace Sys2Proof.Machine

/-- What an instruction or a step answers. -/
abbrev Result := Host.Outcome State Fault Refusal

/-! ### Outputs -/

/-- `emit`, for a sequence of events. -/
def State.emit (s : State) (es : List Event) : State := { s with trace := s.trace ++ es }

/-- `respond`: one response word, tagged with the agent whose command is carried out (R8, R15). -/
def State.respond (s : State) (w : Word) : State :=
  { s with responses := s.responses ++ [{ agent := s.issuer, word := w }] }

/-! ### Bit buffer -/

/-- `BufRead(i)`; `none` where the read has no meaning (20_memory.md R52). -/
def State.bufRead (s : State) (i : Nat) : Option Bool := s.buf[i]?

/-- `BufWrite`: the live buffer is replaced whole (20_memory.md R53). -/
def State.bufWrite (s : State) (bits : List Bool) : State := { s with buf := bits }

/-! ### Latch levels (00_scope.md R11) -/

def State.activeLevel (s : State) : Level := s.params.latchActive

def State.inactiveLevel (s : State) : Level := !s.params.latchActive

/-! ### Faults -/

/-- The cause of what a fault records (10_state.md R32). -/
def Raised.cause : Raised → Cause
  | .illegalCommand _ => .illegalCommand
  | .notConfigured _ _ => .notConfigured
  | .frameOutOfRange _ _ => .frameOutOfRange
  | .emptyMessage _ _ => .emptyMessage
  | .lengthLimit _ => .lengthLimit

def State.setFault (s : State) (c : Cause) : State := { s with fault := some c }

/-- `raise Fault(cause)`: the fault outcome, precise: from the state the command met, only the fault register is
written (60_exceptions.md R150). -/
def raise (r : Raised) (s : State) : Result := .fault (.raised r (s.setFault r.cause))

/-- A faulted state has no step (60_exceptions.md R150); otherwise the command goes on. -/
def whenRunning (s : State) (k : Result) : Result :=
  match s.fault with
  | some _ => .fault (.stuck s)
  | none => k

/-- Reset of a running block: every element of the block at its reset value and the outputs cleared (R180). The
parameters stay, and so do the commands the agents have issued that have not taken effect and the order of the coming
steps, which are the outside world's (log 11). A `PROCESS` in progress ends. -/
def State.applyReset (s : State) : State :=
  { State.resetWith s.params with hostQueue := s.hostQueue, writerQueue := s.writerQueue, turns := s.turns }

end Sys2Proof.Machine
end

