-- ==== Sys2Proof/Machine/Flags.lean ====
section
/-! DEFINITION. The block's one status value (10_state.md R33), its response word (30_encoding.md R74) and the codes
of the enumerated state elements (10_state.md R30, R32). -/

namespace Sys2Proof.Machine

/-- dataSent: `state = Idle` and nothing pending (10_state.md R33, 90_conflicts.md C1). -/
def State.dataSent (s : State) : Bool := decide (s.state = .idle ∧ s.pending = none)

/-- The `DATASENT` response: bit 0 is dataSent, bits 31:1 are zero (30_encoding.md R74). -/
def State.dataSentWord (s : State) : Word := if s.dataSent then 0x00000001#32 else 0x00000000#32

/-- The 2-bit encoding of the transmission state (10_state.md R30). -/
def TxState.code : TxState → BitVec 2
  | .start => 0#2
  | .transmitting => 1#2
  | .stop => 2#2
  | .idle => 3#2

/-- The cause codes (10_state.md R32). -/
def Cause.code : Cause → BitVec 3
  | .illegalCommand => 1#3
  | .notConfigured => 2#3
  | .frameOutOfRange => 3#3
  | .emptyMessage => 4#3
  | .lengthLimit => 5#3

/-- The `fault` element as its 3-bit code, 0 for no fault (10_state.md R22, R32). -/
def State.faultCode (s : State) : BitVec 3 :=
  match s.fault with
  | none => 0#3
  | some c => c.code

end Sys2Proof.Machine
end

