-- ==== Sys2Proof/Machine/Operands.lean ====
section
/-! DEFINITION. The checks and 24-bit quantities the commands take from their operands (00_scope.md R11, 40_setup.md
R90, 41_data_update.md R100, 42_process.md R123). Nothing is signed (00_scope.md R12, 30_encoding.md R77): every
comparison is of the natural numbers that the 24-bit values stand for. -/

namespace Sys2Proof.Machine

/-- The length operand of `SETUP` or `SETDATA` is above `MAX_BITS` (60_exceptions.md R155). -/
def overLimit (s : State) (len : Nat) : Bool := decide (s.params.maxBits < len)

/-- The larger of two 24-bit naturals (R12, R90). -/
def maxImm (a b : Imm24) : Imm24 := if a.toNat < b.toNat then b else a

/-- The length of a message as a 24-bit quantity; exact for every message up to `MAX_BITS`. -/
def messageLength (bits : List Bool) : Imm24 := BitVec.ofNat 24 bits.length

/-- A message of this length takes the growth path (41_data_update.md R101). -/
def needsGrowth (s : State) (bits : List Bool) : Bool := decide (s.capacity.toNat < bits.length)

/-- The sub-frame index is outside the batch (60_exceptions.md R153). -/
def outOfFrame (n N : Nat) : Bool := decide (N ≤ n)

end Sys2Proof.Machine
end

