-- ==== Sys2Proof/Machine/DataUpdate.lean ====
section
/-! DEFINITION. `SETDATA` and `DATASENT` (41_data_update.md R100 to R106). -/

namespace Sys2Proof.Machine

/-- The growth path: raise the capacity to the message's length and mark it with `Grow` (R100, R101). -/
def State.growFor (s : State) (bits : List Bool) : State :=
  if needsGrowth s bits then
    { s.emit [.grow s.capacity (messageLength bits)] with capacity := messageLength bits }
  else s

/-- Publish the whole message; it replaces any earlier pending one (R100, R102). -/
def State.publish (s : State) (bits : List Bool) : State := { s with pending := some bits }

/-- `SETDATA` (R100). It writes neither `cursor` nor `state` (R103). -/
def execSetdata (bits : List Bool) (s : State) : Result :=
  whenRunning s <|
    if overLimit s bits.length then raise (.lengthLimit (Instr.setdata bits).header) s
    else .next ((s.growFor bits).publish bits)

/-- `DATASENT` (R105). -/
def execDatasent (s : State) : Result :=
  whenRunning s <| .next (s.respond s.dataSentWord)

end Sys2Proof.Machine
end

