-- ==== Sys2Proof/Machine/Process.lean ====
section
/-! DEFINITION. `TICK` and `PROCESS`: direction configuration, adoption, the four protocol actions, and the batch of
ticks (42_process.md R120 to R131). -/

namespace Sys2Proof.Machine

/-- The three direction events of the bound pins, in the order of R126. -/
def State.dirEvents (s : State) : List Event :=
  [.dirOut s.pins.data, .dirOut s.pins.clock, .dirOut s.pins.latch]

/-- Direction configuration, when it is due (R126). -/
def State.configureDirection (s : State) : State :=
  if s.dirPending then { s.emit s.dirEvents with pinConfigured := true, dirPending := false } else s

/-- Adoption: the pending message becomes the live buffer whole, and the transmission starts over (R122). -/
def State.adopt (s : State) : State :=
  match s.pending with
  | none => s
  | some bits => { s.bufWrite bits with pending := none, cursor := 0#24, state := .start }

/-- The Start action (R125). -/
def State.startAction (s : State) (n : Nat) : State :=
  { s.emit [.wr s.pins.latch n s.inactiveLevel] with cursor := 0#24, state := .transmitting }

/-- The Transmitting action on the bit `v` at the cursor (R127). -/
def State.shiftBit (s : State) (n : Nat) (v : Bool) : State :=
  { s.emit [.wr s.pins.data n v, .clockPulse s.pins.clock n] with
    cursor := s.cursor + 1#24
    state := if s.cursor.toNat + 1 = s.buf.length then .stop else .transmitting }

/-- The Transmitting action (R127). A tick checks R154 first, so the bit at the cursor exists. -/
def State.transmitAction (s : State) (n : Nat) : State :=
  match s.bufRead s.cursor.toNat with
  | some v => s.shiftBit n v
  | none => s

/-- The Stop action (R128). -/
def State.stopAction (s : State) (n : Nat) : State :=
  { s.emit [.wr s.pins.latch n s.activeLevel] with state := .idle }

/-- The protocol action of the transmission state (R124, R125, R127, R128). -/
def State.protocolAction (s : State) (n : Nat) : State :=
  match s.state with
  | .idle => s
  | .start => s.startAction n
  | .transmitting => s.transmitAction n
  | .stop => s.stopAction n

/-- The tick would transmit a bit that does not exist (60_exceptions.md R154). -/
def State.emptyAt (s : State) : Bool :=
  decide (s.pending = none ∧ s.state = .transmitting ∧ s.buf.length ≤ s.cursor.toNat)

/-- `TICK_STEP(n, N)`: one atomic tick (R123), for the command whose header a fault records. -/
def tickStep (header : Word) (n N : Nat) (s : State) : Result :=
  if !s.bound then raise (.notConfigured header n) s
  else if outOfFrame n N then raise (.frameOutOfRange n N) s
  else if s.emptyAt then raise (.emptyMessage header n) s
  else .next (s.configureDirection.adopt.protocolAction n)

/-- `TICK` (R123), in the frame context of the command. -/
def execTick (n : Imm24) (s : State) : Result :=
  whenRunning s <| tickStep (Instr.tick n).header n.toNat s.frame s

/-- What is left of a `PROCESS` after its tick `n`: the next tick, or nothing (R121). -/
def State.afterTick (s : State) (n : Nat) : State :=
  { s with batch := if n + 1 < s.frame then some (n + 1) else none }

/-- Tick `n` of a `PROCESS`, one atomic step (R120, R121). -/
def batchTick (n : Nat) (s : State) : Result :=
  match tickStep Instr.process.header n s.frame s with
  | .next t => .next (t.afterTick n)
  | .fault f => .fault f
  | .refused r => .refused r

/-- `PROCESS` (R120): its first tick; the others are steps of their own, which the command interface carries out from
`batch` (R121). With `N = 0` it carries out nothing and raises nothing. -/
def execProcess (s : State) : Result :=
  whenRunning s <| if s.frame = 0 then .next s else batchTick 0 s

end Sys2Proof.Machine
end

