-- ==== Sys2Proof/Machine/Setup.lean ====
section
/-! DEFINITION. `SETUP` (40_setup.md R90 to R92). -/

namespace Sys2Proof.Machine

/-- Bind the pins, reserve capacity, arm direction configuration (R90). -/
def State.bindPins (s : State) (maxSize : Imm24) (d c l : PinId) : State :=
  { s with
    pins := { data := d, clock := c, latch := l }
    bound := true
    capacity := maxImm s.capacity maxSize
    dirPending := true }

/-- `SETUP` (R90); it may be issued at any time (R91). -/
def execSetup (maxSize : Imm24) (d c l : PinId) (s : State) : Result :=
  whenRunning s <|
    if overLimit s maxSize.toNat then raise (.lengthLimit (Instr.setup maxSize d c l).header) s
    else .next (s.bindPins maxSize d c l)

end Sys2Proof.Machine
end

