-- ==== Sys2Proof/Machine/Dispatch.lean ====
section
/-! DEFINITION. The meaning of each command: one arm per constructor of `Instr`. -/

namespace Sys2Proof.Machine

def exec (i : Instr) (s : State) : Host.Outcome State Fault Refusal :=
  match i with
  | .setup maxSize data clock latch => Sys2Proof.Machine.execSetup maxSize data clock latch s
  | .setdata bits => Sys2Proof.Machine.execSetdata bits s
  | .datasent => Sys2Proof.Machine.execDatasent s
  | .tick n => Sys2Proof.Machine.execTick n s
  | .process => Sys2Proof.Machine.execProcess s

end Sys2Proof.Machine
end

