-- ==== Sys2Proof/Machine/Interface.lean ====
section
/-! DEFINITION. The command interface (00_scope.md R7 to R9): what the outside world can do to the machine, and how
each agent's next step is taken (20_memory.md R59, 42_process.md R121). -/

namespace Sys2Proof.Machine

/-! ### The outside world -/

/-- The Host issues a command with its frame context. -/
def State.hostIssues (s : State) (words : List Word) (N : Nat) : State :=
  { s with hostQueue := s.hostQueue ++ [{ words := words, frame := N }] }

/-- The Writer issues a command. -/
def State.writerIssues (s : State) (words : List Word) : State :=
  { s with writerQueue := s.writerQueue ++ [words] }

/-- The outside world decides the order of further steps. -/
def State.ordered (s : State) (turns : List Turn) : State := { s with turns := s.turns ++ turns }

/-! ### Taking a command -/

/-- The state in which the Host's next command is carried out. -/
def State.takeHost (s : State) (c : HostCommand) (rest : List HostCommand) : State :=
  { s with hostQueue := rest, issuer := .host, frame := c.frame }

/-- The state in which the Writer's next command is carried out. It brings no frame context, so that of a `PROCESS`
in progress stays. -/
def State.takeWriter (s : State) (rest : List (List Word)) : State :=
  { s with writerQueue := rest, issuer := .writer }

/-- Decode a delivered command and carry it out for its agent. An illegal header faults (60_exceptions.md R151). -/
def runCommand (a : Agent) (words : List Word) (s : State) : Result :=
  match decode words with
  | .error (.illegalCommand h) => raise (.illegalCommand h) s
  | .error .noHeader => .refused (.notWhole a)
  | .error (.truncated _) => .refused (.notWhole a)
  | .ok (i, []) => if a = .writer ∧ i.needsFrame = true then .refused .noFrameContext else exec i s
  | .ok (_, _ :: _) => .refused (.notWhole a)

/-! ### Steps -/

/-- The Host's next step: the next tick of its `PROCESS` in progress, before any other command of its own (R121);
else its next command; with none issued the block waits (70_reset_and_hazards.md R181). -/
def hostTurn (s : State) : Result :=
  match s.batch with
  | some n => batchTick n { s with issuer := .host }
  | none =>
    match s.hostQueue with
    | [] => .next s
    | c :: rest => runCommand .host c.words (s.takeHost c rest)

/-- The Writer's next command; with none issued the block waits. -/
def writerTurn (s : State) : Result :=
  match s.writerQueue with
  | [] => .next s
  | ws :: rest => runCommand .writer ws (s.takeWriter rest)

/-- One step of the machine. A reset has a step from every state, an agent only from a state that is not faulted
(60_exceptions.md R150). With no turn given the block waits. -/
def stepOf (s : State) : Result :=
  match s.turns with
  | [] => whenRunning s (.next s)
  | .reset :: rest => .next ({ s with turns := rest }).applyReset
  | .host :: rest => whenRunning s (hostTurn { s with turns := rest })
  | .writer :: rest => whenRunning s (writerTurn { s with turns := rest })

/-- The command with table bits `w`, issued by the Host as its next command and given the next turn. Its frame
context is the one the state holds; a `PROCESS` in progress would hold the command back, so none is. -/
def placeCommand (s : State) (nbits w : Nat) : State :=
  { s with
    hostQueue := { words := tableWords nbits w, frame := s.frame } :: s.hostQueue
    turns := .host :: s.turns
    batch := none }

end Sys2Proof.Machine
end

