-- ==== Sys2Proof/Machine/Step.lean ====
section
/-! DEFINITION. The machine's step, and placing one command for it. -/

namespace Sys2Proof.Machine

/-- One step: one whole command, one tick of a `PROCESS`, a reset, or waiting (20_memory.md R55, R59). -/
def step (s : State) : Host.Outcome State Fault Refusal := stepOf s

/-- The state whose very next step runs the command with table bits `w` (log 12). -/
def State.withFetchWord (s : State) (nbits w : Nat) : State := placeCommand s nbits w

end Sys2Proof.Machine
end

