-- ==== Sys2Proof/Assembler.lean ====
section
/-! DEFINITION. The one assembler spelling of each command (30_encoding.md R81, R82). -/

namespace Sys2Proof

/-- The annotation of the run-time frame context; braces by their character codes. -/
def frameAnnotation (N : Nat) : String :=
  String.singleton (Char.ofNat 123) ++ "N=" ++ toString N ++ String.singleton (Char.ofNat 125)

/-- The spelling of a command; `N` is the frame context it is run in, shown where the command takes one. -/
def Instr.spelling (i : Instr) (N : Nat) : String :=
  match i with
  | .setup maxSize d c l =>
    "setup " ++ toString maxSize.toNat ++ ", " ++ toString d.toNat ++ ", " ++ toString c.toNat ++ ", "
      ++ toString l.toNat
  | .setdata bits => "setdata [" ++ ",".intercalate (bits.map fun b => if b then "1" else "0") ++ "]"
  | .datasent => "datasent"
  | .tick n => "tick " ++ toString n.toNat ++ " " ++ frameAnnotation N
  | .process => "process " ++ frameAnnotation N

end Sys2Proof
end

