-- ==== Sys2Proof/Machine/Observe.lean ====
section
/-! DEFINITION. What is read off a run and its trace: the observation of 00_scope.md R15, the line levels of
10_state.md R34, the host's level writes (R10, R188) and the external shift register as far as the block drives it
(R17; log 13). None of it is state of the block. -/

namespace Sys2Proof.Machine

/-! ### The observation (R15, 60_exceptions.md R158) -/

/-- Everything a claim about the block may read of a run. -/
structure Observation where
  /-- The trace events. -/
  trace : List Event
  /-- The responses, each with its issuing agent. -/
  responses : List Response
  /-- Whether the run ended in a fault, and with which cause. -/
  fault : Option Cause
  /-- What the fault that ended the run recorded (60_exceptions.md R151 to R155, R158). -/
  recorded : Option Raised
deriving DecidableEq, Repr

/-- The state an outcome leaves; a refused step leaves none. -/
def stateAfter (r : Result) : Option State :=
  match r with
  | .next s => some s
  | .fault (.raised _ s) => some s
  | .fault (.stuck s) => some s
  | .refused _ => none

/-- What the fault of this outcome recorded. A faulted state has no step, so `stuck` records nothing: there is no second
fault (60_exceptions.md R159). -/
def recordOf (r : Result) : Option Raised :=
  match r with
  | .next _ => none
  | .fault (.raised c _) => some c
  | .fault (.stuck _) => none
  | .refused _ => none

/-- The observation of a run, or of one step, that ends in this outcome; a refused one is no run of the spec's. -/
def observation (r : Result) : Option Observation :=
  (stateAfter r).map fun s =>
    { trace := s.trace, responses := s.responses, fault := s.fault, recorded := recordOf r }

/-! ### Line levels (10_state.md R34) -/

/-- The level of the last write to `pin`; `none` is `unknown`. -/
def lineLevel (pin : PinId) (trace : List Event) : Option Level :=
  trace.foldl
    (fun acc e =>
      match e with
      | .wr p _ v => if p = pin then some v else acc
      | .dirOut _ => acc
      | .clockPulse _ _ => acc
      | .grow _ _ => acc)
    none

/-- `lv_data` -/
def State.lvData (s : State) : Option Level := lineLevel s.pins.data s.trace

/-- `lv_latch` -/
def State.lvLatch (s : State) : Option Level := lineLevel s.pins.latch s.trace

/-! ### The host's level writes (R10, R184, R188) -/

/-- The level writes by which the host carries out one event, in the OPEN realisation of a clock pulse. Direction
requests and `Grow` write no level. -/
def Event.levelWrites : Event → List LevelWrite
  | .dirOut _ => []
  | .wr p n v => [{ pin := p, n := n, level := v }]
  | .clockPulse p n => Config.clockPulseRealisation p n
  | .grow _ _ => []

/-- A host that carries out the trace in order (70_reset_and_hazards.md R184). -/
def hostWrites (trace : List Event) : List LevelWrite := trace.flatMap Event.levelWrites

/-! ### The external shift register (R17) -/

/-- What the trace says of the external register. `none` is `unknown`. -/
structure Register where
  /-- The level of its data line. -/
  data : Option Level
  /-- The level of its latch line. -/
  latch : Option Level
  /-- The bits shifted in since the last commit, first one first. -/
  shifted : Option (List (Option Level))
  /-- The bits its parallel outputs show. -/
  outputs : Option (List (Option Level))
deriving DecidableEq, Repr

/-- Before any event: line levels and outputs unknown, nothing shifted in. -/
def Register.powerUp : Register := { data := none, latch := none, shifted := some [], outputs := none }

/-- The latch line moves to `v`. From inactive to active it commits what was shifted in; from an unknown level to
active it may have. -/
def Register.latchTo (r : Register) (active v : Level) : Register :=
  if v = active then
    match r.latch with
    | none => { r with latch := some v, shifted := none, outputs := none }
    | some u =>
      if u = active then r else { r with latch := some v, shifted := some [], outputs := r.shifted }
  else { r with latch := some v }

/-- One write of level `v` to pin `p`, on a register wired to `pins`. DESIGN CHOICE (log 13): on a pin that is both data
and latch it moves both lines at once, and on one that is also the clock it shifts nothing. -/
def Register.write (r : Register) (pins : Pins) (active : Level) (p : PinId) (v : Level) : Register :=
  let r' := if p = pins.data then { r with data := some v } else r
  if p = pins.latch then r'.latchTo active v else r'

/-- One event of the trace: each clock pulse shifts the data line's level in. DESIGN CHOICE (log 13): where the clock
pin is also the data or the latch pin, which 60_exceptions.md R156 accepts, a pulse moves neither of those lines; the
spec leaves the pulse's level writes open, and with them what they do there. -/
def Register.see (pins : Pins) (active : Level) (r : Register) (e : Event) : Register :=
  match e with
  | .dirOut _ => r
  | .wr p _ v => r.write pins active p v
  | .clockPulse p _ => if p = pins.clock then { r with shifted := r.shifted.map (· ++ [r.data]) } else r
  | .grow _ _ => r

/-- The register after a trace. -/
def Register.seeAll (pins : Pins) (active : Level) (r : Register) (trace : List Event) : Register :=
  trace.foldl (Register.see pins active) r

end Sys2Proof.Machine
end

