-- ==== Sys2Proof/Safety.lean ====
section
/-! DEFINITION. What claims about runs are stated in: sequences of commands and of ticks, the invariant of
10_state.md R35, the premises the spec gives claims (70_reset_and_hazards.md R187, R188, R190), and the trace a whole
transmission leaves (42_process.md R132 to R134). -/

namespace Sys2Proof.Machine

/-! ### Sequences -/

/-- Commands one after another, stopping at the first that answers no next state. -/
def runCommands : List Instr → State → Result
  | [], s => .next s
  | i :: rest, s =>
    match exec i s with
    | .next t => runCommands rest t
    | .fault f => .fault f
    | .refused r => .refused r

/-- `TICK` commands one after another, each with its sub-frame index and its frame context. -/
def runTicks : List (Imm24 × Nat) → State → Result
  | [], s => .next s
  | (n, N) :: rest, s =>
    match exec (.tick n) { s with frame := N } with
    | .next t => runTicks rest t
    | .fault f => .fault f
    | .refused r => .refused r

/-- Every index lies in its frame context, so no tick of the list is `FRAME_OUT_OF_RANGE`. -/
def inFrames (ticks : List (Imm24 × Nat)) : Bool := ticks.all fun t => decide (t.1.toNat < t.2)

/-- The ticks `n = from, from + 1, ...`, `count` of them, of one `PROCESS` in a context of `N` sub-frames (R120). -/
def tickSequence (N : Nat) : Nat → Nat → State → Result
  | _, 0, s => .next s
  | n, count + 1, s =>
    match tickStep Instr.process.header n N s with
    | .next t => tickSequence N (n + 1) count t
    | .fault f => .fault f
    | .refused r => .refused r

/-- Whole batches in contexts of `N` sub-frames, one after another (R194). -/
def runBatches (N : Nat) : Nat → State → Result
  | 0, s => .next s
  | count + 1, s =>
    match tickSequence N 0 N s with
    | .next t => runBatches N count t
    | .fault f => .fault f
    | .refused r => .refused r

/-! ### The invariant -/

/-- The clauses of 10_state.md R35. -/
structure State.Inv (s : State) : Prop where
  cursor_le : s.cursor.toNat ≤ s.buf.length
  buf_le : s.buf.length ≤ s.capacity.toNat
  capacity_le : s.capacity.toNat ≤ s.params.maxBits
  pending_le : ∀ bits, s.pending = some bits → bits.length ≤ s.capacity.toNat
  transmitting : s.state = .transmitting → s.cursor.toNat < s.buf.length ∨ s.buf.length = 0
  stop : s.state = .stop → s.cursor.toNat = s.buf.length

/-! ### Premises of claims -/

/-- The words of a `SETDATA`, by their header. -/
def isSetdata (words : List Word) : Bool :=
  match words with
  | [] => false
  | h :: _ =>
    match decodeHeader h with
    | some (.setdata _) => true
    | some (.setup _) => false
    | some .datasent => false
    | some (.tick _) => false
    | some .process => false
    | none => false

/-- All `SETDATA` commands still to take effect come from one agent (70_reset_and_hazards.md R190). -/
def State.oneWriter (s : State) : Bool :=
  !(s.hostQueue.any (fun c => isSetdata c.words)) || !(s.writerQueue.any isSetdata)

def Event.isGrow : Event → Bool
  | .grow _ _ => true
  | .dirOut _ => false
  | .wr _ _ _ => false
  | .clockPulse _ _ => false

/-- The premise of a timing claim: no capacity growth in the trace (R187). -/
def noGrow (trace : List Event) : Bool := trace.all fun e => !e.isGrow

/-- The host's duty for one clock pulse: its level writes are on the clock pin and make exactly one pulse that starts
and ends at the idle level (R188, 92_eei_decisions.md D8). -/
def singlePulse (pin : PinId) (idle : Level) (ws : List LevelWrite) : Bool :=
  let high := (ws.map LevelWrite.level).dropWhile (· == idle)
  let back := high.dropWhile (· != idle)
  ws.all (fun w => w.pin == pin) && !back.isEmpty && back.all (· == idle)

/-! ### Events of a tick and of a transmission -/

def Event.isClock : Event → Bool
  | .clockPulse _ _ => true
  | .dirOut _ => false
  | .wr _ _ _ => false
  | .grow _ _ => false

def Event.isDirOut : Event → Bool
  | .dirOut _ => true
  | .wr _ _ _ => false
  | .clockPulse _ _ => false
  | .grow _ _ => false

def Event.isWr : Event → Bool
  | .wr _ _ _ => true
  | .dirOut _ => false
  | .clockPulse _ _ => false
  | .grow _ _ => false

def Event.isWrTo (pin : PinId) : Event → Bool
  | .wr p _ _ => p == pin
  | .dirOut _ => false
  | .clockPulse _ _ => false
  | .grow _ _ => false

/-- The direction events that a tick of `s` emits first (R126). -/
def State.dueDirEvents (s : State) : List Event := if s.dirPending then s.dirEvents else []

/-- Bit after bit: the data write and the clock pulse of each Transmitting tick (R133). -/
def shiftEvents (pins : Pins) : List Bool → List Nat → List Event
  | b :: bits, n :: ns => .wr pins.data n b :: .clockPulse pins.clock n :: shiftEvents pins bits ns
  | [], _ => []
  | _ :: _, [] => []

/-- The protocol events of one whole transmission whose ticks run at sub-frames `n₀`, `ns`, `nₑ` (R132 to R134). -/
def transmissionEvents (pins : Pins) (active : Level) (bits : List Bool) (n₀ : Nat) (ns : List Nat) (nₑ : Nat) :
    List Event :=
  .wr pins.latch n₀ (!active) :: (shiftEvents pins bits ns ++ [.wr pins.latch nₑ active])

/-! ### Frames and comparisons -/

/-- The command interface's fields are unchanged. -/
structure SameInterface (s t : State) : Prop where
  hostQueue : t.hostQueue = s.hostQueue
  writerQueue : t.writerQueue = s.writerQueue
  turns : t.turns = s.turns
  issuer : t.issuer = s.issuer
  frame : t.frame = s.frame
  batch : t.batch = s.batch

/-- The buffers and the transmission's progress are unchanged. -/
structure SameTransmission (s t : State) : Prop where
  buf : t.buf = s.buf
  pending : t.pending = s.pending
  state : t.state = s.state
  cursor : t.cursor = s.cursor

/-- The same outcome with every state in it changed by `f`. -/
def mapState (f : State → State) (r : Result) : Result :=
  match r with
  | .next s => .next (f s)
  | .fault (.raised c s) => .fault (.raised c (f s))
  | .fault (.stuck s) => .fault (.stuck (f s))
  | .refused c => .refused c

end Sys2Proof.Machine
end

