-- ==== Sys2Proof/Certificates/Slice0/Obligations.lean ====
section
/-! DEFINITION. The statements for the provers. Each docstring names the rule of spec/ it rests on. Where it says
"decision D<n>" the spec marks the rule as its own choice (92_eei_decisions.md); where it says "log <n>" a clause is the
model's own convention (notes/assumptions). The fields of `SameInterface` are the model's account of the command
interface (log 5, 6). -/

open Sys2Proof Sys2Proof.Machine

/-! ### Encoding -/

/-- The worked encodings of 30_encoding.md R83, read and written. -/
def Obligations.WorkedEncodings : Prop :=
  let m : List Bool := [true, false, true, true, false, false, true, false]
  (decode [0x00000801#32, 0#32, 1#32, 2#32] = .ok (.setup 8#24 0#32 1#32 2#32, [])
    ∧ encode (.setup 8#24 0#32 1#32 2#32) = [0x00000801#32, 0#32, 1#32, 2#32])
  ∧ (decode [0x00000802#32, 0x0000004D#32] = .ok (.setdata m, [])
    ∧ encode (.setdata m) = [0x00000802#32, 0x0000004D#32])
  ∧ (decode [0x00000002#32] = .ok (.setdata [], []) ∧ encode (.setdata []) = [0x00000002#32])
  ∧ (decode [0x00000003#32] = .ok (.datasent, []) ∧ encode .datasent = [0x00000003#32])
  ∧ (decode [0x00000504#32] = .ok (.tick 5#24, []) ∧ encode (.tick 5#24) = [0x00000504#32])
  ∧ (decode [0x00000005#32] = .ok (.process, []) ∧ encode .process = [0x00000005#32])

/-- Decoding the words of any well-formed command gives that command back and leaves the words after it: no operand
bit is dropped (30_encoding.md R72 to R78). -/
def Obligations.DecodeOfEncode : Prop :=
  ∀ (i : Instr), i.wellFormed = true → ∀ rest : List Word, decode (encode i ++ rest) = .ok (i, rest)

/-- A header is decoded to a form exactly when it is that form's header, so no two headers say the same and no
legal header has a stray bit (30_encoding.md R70 to R78). -/
def Obligations.HeaderDecodesExactly : Prop :=
  ∀ (h : Word) (f : Form), decodeHeader h = some f ↔ h = f.header

/-- The decoder of 30_encoding.md R78, field by field on the header as a number; after an illegal header no payload
word is read. Decision D18. -/
def Obligations.DecoderFollowsOpcodeMap : Prop :=
  ∀ h : Word,
    let op := h.toNat % 16
    let rsvd := h.toNat / 16 % 16
    let imm := h.toNat / 256
    (rsvd ≠ 0 → decodeHeader h = none)
    ∧ (rsvd = 0 → op = 1 → decodeHeader h = some (.setup (BitVec.ofNat 24 imm)))
    ∧ (rsvd = 0 → op = 2 → decodeHeader h = some (.setdata (BitVec.ofNat 24 imm)))
    ∧ (rsvd = 0 → op = 3 → imm ≠ 0 → decodeHeader h = none)
    ∧ (rsvd = 0 → op = 3 → imm = 0 → decodeHeader h = some .datasent)
    ∧ (rsvd = 0 → op = 4 → decodeHeader h = some (.tick (BitVec.ofNat 24 imm)))
    ∧ (rsvd = 0 → op = 5 → imm ≠ 0 → decodeHeader h = none)
    ∧ (rsvd = 0 → op = 5 → imm = 0 → decodeHeader h = some .process)
    ∧ (rsvd = 0 → (op = 0 ∨ 6 ≤ op) → decodeHeader h = none)
    ∧ (∀ (f : Form) (ps : List Word), decodeHeader h = some f →
        ps.length = (if op = 1 then 3 else if op = 2 then (imm + 31) / 32 else 0) →
        ∃ i, decode (h :: ps) = .ok (i, []))
    ∧ (decodeHeader h = none → ∀ ps, decode (h :: ps) = .error (.illegalCommand h))
    ∧ (decodeHeader h = none → ∀ (a : Agent) (ps : List Word) (s : State),
        runCommand a (h :: ps) s = .fault (.raised (.illegalCommand h) { s with fault := some .illegalCommand }))

/-- Message bit `k` of a `SETDATA` is bit `k mod 32` of payload word `k div 32`; the payload bits past the message
have no effect (30_encoding.md R73). Decision D3. -/
def Obligations.MessageBitsFromPayload : Prop :=
  ∀ (len : Imm24) (ps rest : List Word), ps.length = (len.toNat + 31) / 32 →
    (∃ bits, decode ((((len.setWidth 32) <<< 8) ||| 0x2#32) :: (ps ++ rest)) = .ok (.setdata bits, rest)
      ∧ bits.length = len.toNat
      ∧ ∀ k, k < len.toNat → bits[k]? = some ((ps.getD (k / 32) 0#32).getLsbD (k % 32)))
    ∧ ∀ ps' : List Word, ps'.length = ps.length →
        (∀ k, k < len.toNat →
          (ps'.getD (k / 32) 0#32).getLsbD (k % 32) = (ps.getD (k / 32) 0#32).getLsbD (k % 32)) →
        decode ((((len.setWidth 32) <<< 8) ||| 0x2#32) :: (ps' ++ rest))
          = decode ((((len.setWidth 32) <<< 8) ||| 0x2#32) :: (ps ++ rest))

/-- The length of a command in words follows from its header alone, for the words the encoder writes and for the
words the decoder takes (30_encoding.md R80). Decision D2. -/
def Obligations.LengthFromHeaderAlone : Prop :=
  let length := fun h : Word =>
    if h.toNat % 16 = 1 then 4
    else if h.toNat % 16 = 2 then 1 + (h.toNat / 256 + 31) / 32
    else 1
  (∀ i : Instr, i.wellFormed = true →
    (encode i).head? = some i.header ∧ (encode i).length = length i.header)
  ∧ ∀ (h : Word) (ps rest : List Word) (i : Instr),
      decode (h :: ps) = .ok (i, rest) → (h :: ps).length = length h + rest.length

/-- The words of each command, written from the layouts of 30_encoding.md R72 to R76: bit `k mod 32` of payload word
`k div 32` of a `SETDATA` is message bit `k`. The payload bits past the message are zero, which is the encoder's choice
(log 14). -/
def Obligations.CommandWords : Prop :=
  (∀ (m : Imm24) (d c l : Word), encode (.setup m d c l) = [((m.setWidth 32) <<< 8) ||| 0x1#32, d, c, l])
  ∧ (∀ bits : List Bool, ∃ ps : List Word,
      encode (.setdata bits) = ((((BitVec.ofNat 24 bits.length).setWidth 32) <<< 8) ||| 0x2#32) :: ps
      ∧ ps.length = (bits.length + 31) / 32
      ∧ (∀ k, k < bits.length → some ((ps.getD (k / 32) 0#32).getLsbD (k % 32)) = bits[k]?)
      ∧ ∀ k, bits.length ≤ k → (ps.getD (k / 32) 0#32).getLsbD (k % 32) = false)
  ∧ encode .datasent = [0x00000003#32]
  ∧ (∀ n : Imm24, encode (.tick n) = [((n.setWidth 32) <<< 8) ||| 0x4#32])
  ∧ encode .process = [0x00000005#32]

/-! ### Reset -/

/-- Reset gives every element the value of 70_reset_and_hazards.md R180 (the pins, unspecified there, are not
mentioned), clears the trace, so that both line levels are unknown, and works from every state. Decision D22. That it
keeps the parameters, as a turn of the outside world, is the model's choice (log 1, 11). -/
def Obligations.ResetValues : Prop :=
  let atReset := fun t : State =>
    t.bound = false ∧ t.pinConfigured = false ∧ t.dirPending = false ∧ t.capacity.toNat = 0 ∧ t.buf = []
      ∧ t.pending = none ∧ t.state = .idle ∧ t.cursor.toNat = 0 ∧ t.faultCode.toNat = 0
      ∧ t.trace = [] ∧ t.lvData = none ∧ t.lvLatch = none
  atReset State.reset
  ∧ ∀ (s : State) (rest : List Turn), s.turns = .reset :: rest →
      ∃ t, step s = .next t ∧ atReset t ∧ t.params = s.params

/-- After reset the block waits; `DATASENT` responds 1; a tick raises `NOT_CONFIGURED`, and so does a `PROCESS` with
a sub-frame (70_reset_and_hazards.md R181, 95_test_vectors.md V-DS-1, V-TK-10, V-PR-3). That the response is tagged with
the Host, the issuer at reset, and that a step with no turn given waits, are the model's choices (log 5, 12). -/
def Obligations.FirstCommandAfterReset : Prop :=
  ∀ p : Params,
    step (State.resetWith p) = .next (State.resetWith p)
    ∧ (∃ t, exec .datasent (State.resetWith p) = .next t
        ∧ t.responses = [{ agent := .host, word := 0x00000001#32 }])
    ∧ (∀ (n : Imm24) (N : Nat), ∃ a,
        exec (.tick n) { State.resetWith p with frame := N }
          = .fault (.raised (.notConfigured (((n.setWidth 32) <<< 8) ||| 0x4#32) n.toNat) a))
    ∧ ∀ N : Nat, 0 < N → ∃ a,
        exec .process { State.resetWith p with frame := N }
          = .fault (.raised (.notConfigured 0x00000005#32 0) a)

/-! ### SETUP -/

/-- `SETUP` up to `MAX_BITS` completes in every state that is not faulted: it binds the pins, raises the capacity to
at least `maxSize`, arms direction configuration, emits nothing and leaves everything else (40_setup.md R90). -/
def Obligations.SetupResult : Prop :=
  ∀ (s : State) (m : Imm24) (d c l : PinId), s.fault = none → m.toNat ≤ s.params.maxBits →
    ∃ t, exec (.setup m d c l) s = .next t
      ∧ t.pins.data = d ∧ t.pins.clock = c ∧ t.pins.latch = l
      ∧ t.bound = true ∧ t.dirPending = true
      ∧ t.capacity.toNat = max s.capacity.toNat m.toNat
      ∧ t.params = s.params ∧ t.pinConfigured = s.pinConfigured ∧ t.fault = s.fault
      ∧ SameTransmission s t ∧ t.trace = s.trace ∧ t.responses = s.responses ∧ SameInterface s t

/-- A `maxSize` or a message length above `MAX_BITS` raises `LENGTH_LIMIT`, code 5, which records the header
(60_exceptions.md R155). Decision D5. -/
def Obligations.LengthLimitFaults : Prop :=
  ∀ s : State, s.fault = none →
    (∀ (m : Imm24) (d c l : PinId), s.params.maxBits < m.toNat →
      exec (.setup m d c l) s
        = .fault (.raised (.lengthLimit (((m.setWidth 32) <<< 8) ||| 0x1#32))
            { s with fault := some .lengthLimit }))
    ∧ (∀ bits : List Bool, s.params.maxBits < bits.length →
      exec (.setdata bits) s
        = .fault (.raised (.lengthLimit ((((BitVec.ofNat 24 bits.length).setWidth 32) <<< 8) ||| 0x2#32))
            { s with fault := some .lengthLimit }))
    ∧ Cause.lengthLimit.code.toNat = 5

/-- A `SETUP` issued again re-arms direction configuration, keeps `pinConfigured` and the transmission, and the next
tick writes only to the newly bound pins, its direction events first; a transmission under way goes on there with its
next bit (40_setup.md R91). Decisions D13, D14. -/
def Obligations.SetupAgainMovesToNewPins : Prop :=
  ∀ (s : State) (m : Imm24) (d c l : PinId), s.fault = none → m.toNat ≤ s.params.maxBits →
    ∃ t, exec (.setup m d c l) s = .next t
      ∧ t.dirPending = true ∧ t.pinConfigured = s.pinConfigured
      ∧ t.state = s.state ∧ t.cursor = s.cursor ∧ t.buf = s.buf
      ∧ ∀ n : Imm24, n.toNat < s.frame → s.emptyAt = false →
          ∃ u es, exec (.tick n) t = .next u
            ∧ u.trace = s.trace ++ ([.dirOut d, .dirOut c, .dirOut l] ++ es)
            ∧ (∀ e ∈ es, (∃ v, e = .wr d n.toNat v) ∨ (∃ v, e = .wr l n.toNat v) ∨ e = .clockPulse c n.toNat)
            ∧ ∀ v, s.state = .transmitting → s.pending = none → s.buf[s.cursor.toNat]? = some v →
                es = [.wr d n.toNat v, .clockPulse c n.toNat]

/-- A block in Idle with nothing pending stays so through any number of `SETUP` commands and ticks, all of which
complete, and no line is written (40_setup.md R92). -/
def Obligations.SetupNeverStartsTransmission : Prop :=
  ∀ (cmds : List Instr) (s : State), s.fault = none → s.bound = true → s.state = .idle → s.pending = none →
    (∀ i ∈ cmds, (∃ m d c l, i = .setup m d c l ∧ m.toNat ≤ s.params.maxBits)
      ∨ ∃ n, i = .tick n ∧ n.toNat < s.frame) →
    ∃ t es, runCommands cmds s = .next t ∧ t.state = .idle ∧ t.pending = none
      ∧ t.trace = s.trace ++ es ∧ ∀ e ∈ es, e.isDirOut = true

/-! ### SETDATA -/

/-- `SETDATA` up to `MAX_BITS` completes in every state that is not faulted: the whole message is pending, the
capacity covers it, `Grow` marks the growth path and nothing else is written (41_data_update.md R100, R101, R103). -/
def Obligations.SetdataPublishes : Prop :=
  ∀ (s : State) (bits : List Bool), s.fault = none → bits.length ≤ s.params.maxBits →
    ∃ t, exec (.setdata bits) s = .next t
      ∧ t.pending = some bits
      ∧ t.capacity.toNat = max s.capacity.toNat bits.length
      ∧ (s.capacity.toNat < bits.length →
          t.trace = s.trace ++ [.grow s.capacity (BitVec.ofNat 24 bits.length)])
      ∧ (bits.length ≤ s.capacity.toNat → t.trace = s.trace)
      ∧ t.buf = s.buf ∧ t.cursor = s.cursor ∧ t.state = s.state
      ∧ t.params = s.params ∧ t.pins = s.pins ∧ t.bound = s.bound ∧ t.pinConfigured = s.pinConfigured
      ∧ t.dirPending = s.dirPending ∧ t.fault = s.fault ∧ t.responses = s.responses ∧ SameInterface s t

/-- Of two messages before a tick only the later is adopted, whatever was in flight, and no bit of the earlier goes
out in that tick (41_data_update.md R102). -/
def Obligations.LatestWriteWins : Prop :=
  ∀ (s : State) (b₁ b₂ : List Bool) (n : Imm24), s.fault = none → s.bound = true → n.toNat < s.frame →
    b₁.length ≤ s.params.maxBits → b₂.length ≤ s.params.maxBits →
    ∃ t es, runCommands [.setdata b₁, .setdata b₂, .tick n] s = .next t
      ∧ t.buf = b₂ ∧ t.pending = none ∧ t.cursor.toNat = 0 ∧ t.state = .transmitting
      ∧ t.trace = s.trace ++ es
      ∧ ∀ e ∈ es, e.isGrow = true ∨ e.isDirOut = true ∨ e = .wr s.pins.latch n.toNat s.inactiveLevel

/-- Once the capacity covers every message, no command sequence takes the growth path (70_reset_and_hazards.md R183,
41_data_update.md R101). -/
def Obligations.PreSizedRunNeverGrows : Prop :=
  ∀ (cmds : List Instr) (s t : State),
    (∀ bits, .setdata bits ∈ cmds → bits.length ≤ s.capacity.toNat) →
    runCommands cmds s = .next t →
    ∃ es, t.trace = s.trace ++ es ∧ noGrow es = true

/-- An empty message is accepted, its Start tick completes, and the tick after that raises `EMPTY_MESSAGE`
(70_reset_and_hazards.md R192). -/
def Obligations.EmptyMessageFaultsOnSecondTick : Prop :=
  ∀ (s : State) (n k : Imm24), s.fault = none → s.bound = true → n.toNat < s.frame → k.toNat < s.frame →
    ∃ t, runCommands [.setdata [], .tick n] s = .next t ∧ t.state = .transmitting ∧ t.buf = []
      ∧ exec (.tick k) t
          = .fault (.raised (.emptyMessage (((k.setWidth 32) <<< 8) ||| 0x4#32) k.toNat)
              { t with fault := some .emptyMessage })

/-! ### DATASENT -/

/-- `DATASENT` completes in every state that is not faulted. Its response, for its issuing agent, is 1 exactly in Idle
with nothing pending, else 0; it writes nothing else (41_data_update.md R105, 10_state.md R33, 30_encoding.md R74).
The Stop state counts as 0: 90_conflicts.md C1, decision D11. -/
def Obligations.DatasentResponds : Prop :=
  ∀ s : State, s.fault = none →
    ∃ w : Word, exec .datasent s
        = .next { s with responses := s.responses ++ [{ agent := s.issuer, word := w }] }
      ∧ (s.state = .idle ∧ s.pending = none → w = 0x00000001#32)
      ∧ (¬ (s.state = .idle ∧ s.pending = none) → w = 0x00000000#32)

/-! ### TICK -/

/-- A tick while no `SETUP` has completed raises `NOT_CONFIGURED`, with the header and the index, whether it is a
`TICK`, the first tick of a `PROCESS` or a later one (60_exceptions.md R152). Decision D16. -/
def Obligations.NotConfiguredFaults : Prop :=
  ∀ s : State, s.fault = none → s.bound = false →
    (∀ n : Imm24, exec (.tick n) s
      = .fault (.raised (.notConfigured (((n.setWidth 32) <<< 8) ||| 0x4#32) n.toNat)
          { s with fault := some .notConfigured }))
    ∧ (0 < s.frame → exec .process s
      = .fault (.raised (.notConfigured 0x00000005#32 0) { s with fault := some .notConfigured }))
    ∧ (∀ n rest, s.batch = some n → s.turns = .host :: rest →
      ∃ a, step s = .fault (.raised (.notConfigured 0x00000005#32 n) a) ∧ a.fault = some .notConfigured)
    ∧ Cause.notConfigured.code.toNat = 2

/-- A `TICK` whose index is not below the frame count raises `FRAME_OUT_OF_RANGE`, with both numbers, whatever the
transmission state (60_exceptions.md R153). Decision D17. -/
def Obligations.FrameOutOfRangeFaults : Prop :=
  ∀ (s : State) (n : Imm24), s.fault = none → s.bound = true → s.frame ≤ n.toNat →
    exec (.tick n) s
      = .fault (.raised (.frameOutOfRange n.toNat s.frame) { s with fault := some .frameOutOfRange })
    ∧ Cause.frameOutOfRange.code.toNat = 3

/-- A tick in range that begins with nothing pending, in Transmitting, with the cursor at or past the buffer's end
raises `EMPTY_MESSAGE`, with the header and the index; under the invariant of 10_state.md R35 such a buffer is empty
(60_exceptions.md R154). Decision D12. -/
def Obligations.EmptyMessageFaults : Prop :=
  ∀ s : State, s.fault = none → s.bound = true → s.pending = none → s.state = .transmitting →
    s.buf.length ≤ s.cursor.toNat →
    (∀ n : Imm24, n.toNat < s.frame → exec (.tick n) s
      = .fault (.raised (.emptyMessage (((n.setWidth 32) <<< 8) ||| 0x4#32) n.toNat)
          { s with fault := some .emptyMessage }))
    ∧ (0 < s.frame → exec .process s
      = .fault (.raised (.emptyMessage 0x00000005#32 0) { s with fault := some .emptyMessage }))
    ∧ (∀ n rest, s.batch = some n → n < s.frame → s.turns = .host :: rest →
      ∃ a, step s = .fault (.raised (.emptyMessage 0x00000005#32 n) a) ∧ a.fault = some .emptyMessage)
    ∧ (s.Inv → s.buf = [] ∧ s.cursor.toNat = 0)
    ∧ Cause.emptyMessage.code.toNat = 4

/-- The rows of the transition table of 42_process.md R129: in a tick of a bound block inside its frame, exactly one
next state, or the fault of R154. -/
def Obligations.TickTransitionTable : Prop :=
  ∀ (s : State) (n : Imm24), s.fault = none → s.bound = true → n.toNat < s.frame →
    let goes := fun q : TxState => ∃ t, exec (.tick n) s = .next t ∧ t.state = q
    (∀ bits, s.pending = some bits → goes .transmitting)
    ∧ (s.pending = none → s.state = .idle → goes .idle)
    ∧ (s.pending = none → s.state = .start → goes .transmitting)
    ∧ (s.pending = none → s.state = .transmitting → s.cursor.toNat + 1 < s.buf.length → goes .transmitting)
    ∧ (s.pending = none → s.state = .transmitting → s.cursor.toNat + 1 = s.buf.length → goes .stop)
    ∧ (s.pending = none → s.state = .transmitting → s.buf.length ≤ s.cursor.toNat →
        ∃ c a, exec (.tick n) s = .fault (.raised c a) ∧ c.cause = .emptyMessage)
    ∧ (s.pending = none → s.state = .stop → goes .idle)

/-- Adoption, the first part of a tick that does not fault, whatever the old state: the pending message becomes the
live buffer whole, the slot is empty, and the same tick carries out Start (42_process.md R122). Decision D10. -/
def Obligations.TickAdoptsPending : Prop :=
  ∀ (s : State) (n : Imm24) (bits : List Bool), s.fault = none → s.bound = true → n.toNat < s.frame →
    s.pending = some bits →
    ∃ t, exec (.tick n) s = .next t
      ∧ t.buf = bits ∧ t.pending = none ∧ t.cursor.toNat = 0 ∧ t.state = .transmitting
      ∧ t.trace = s.trace ++ (s.dueDirEvents ++ [.wr s.pins.latch n.toNat s.inactiveLevel])

/-- An Idle tick writes no state and no line; only a pending direction configuration is carried out
(42_process.md R124). -/
def Obligations.IdleTickDoesNothing : Prop :=
  ∀ (s : State) (n : Imm24), s.fault = none → s.bound = true → n.toNat < s.frame →
    s.state = .idle → s.pending = none →
    (s.dirPending = false → exec (.tick n) s = .next s)
    ∧ (s.dirPending = true → exec (.tick n) s
        = .next { s with
            trace := s.trace ++ [.dirOut s.pins.data, .dirOut s.pins.clock, .dirOut s.pins.latch]
            pinConfigured := true
            dirPending := false })

/-- The Start action drives the latch to its inactive level, sets the cursor to 0, enters Transmitting and shifts no
bit (42_process.md R125). Decision D6. -/
def Obligations.StartTick : Prop :=
  ∀ (s : State) (n : Imm24), s.fault = none → s.bound = true → n.toNat < s.frame →
    s.state = .start → s.pending = none →
    ∃ t, exec (.tick n) s = .next t
      ∧ t.trace = s.trace ++ (s.dueDirEvents ++ [.wr s.pins.latch n.toNat (!s.params.latchActive)])
      ∧ t.cursor.toNat = 0 ∧ t.state = .transmitting ∧ t.buf = s.buf ∧ t.pending = none

/-- A tick that begins with `dirPending` first emits the three direction events in order, sets `pinConfigured`, clears
`dirPending`, and then does what it would have done without (42_process.md R126). Decision D13. -/
def Obligations.DirectionConfiguredFirst : Prop :=
  ∀ (s t : State) (n : Imm24), s.dirPending = true → exec (.tick n) s = .next t →
    t.pinConfigured = true ∧ t.dirPending = false
    ∧ ∃ u es, exec (.tick n) { s with dirPending := false } = .next u
      ∧ u.trace = s.trace ++ es
      ∧ t.trace = s.trace ++ ([.dirOut s.pins.data, .dirOut s.pins.clock, .dirOut s.pins.latch] ++ es)
      ∧ (∀ e ∈ es, e.isDirOut = false)
      ∧ SameTransmission u t

/-- A Transmitting tick writes the bit at the cursor, then pulses the clock, advances the cursor, and goes to Stop
exactly at the buffer's end; on an empty buffer it raises `EMPTY_MESSAGE` (42_process.md R127). Decisions D7, D8,
D12. -/
def Obligations.TransmittingTick : Prop :=
  ∀ (s : State) (n : Imm24), s.fault = none → s.bound = true → n.toNat < s.frame →
    s.state = .transmitting → s.pending = none →
    (∀ v, s.buf[s.cursor.toNat]? = some v →
      ∃ t, exec (.tick n) s = .next t
        ∧ t.trace = s.trace
            ++ (s.dueDirEvents ++ [.wr s.pins.data n.toNat v, .clockPulse s.pins.clock n.toNat])
        ∧ t.cursor = s.cursor + 1#24
        ∧ (s.cursor.toNat + 1 = s.buf.length → t.state = .stop)
        ∧ (s.cursor.toNat + 1 ≠ s.buf.length → t.state = .transmitting)
        ∧ t.buf = s.buf ∧ t.pending = none)
    ∧ (s.buf = [] → ∃ c a, exec (.tick n) s = .fault (.raised c a) ∧ c.cause = .emptyMessage)

/-- The Stop tick drives the latch to its active level and enters Idle, whether or not the pins were just
configured (42_process.md R128). Decision D6. -/
def Obligations.StopTick : Prop :=
  ∀ (s : State) (n : Imm24), s.fault = none → s.bound = true → n.toNat < s.frame →
    s.state = .stop → s.pending = none →
    ∃ t, exec (.tick n) s = .next t
      ∧ t.trace = s.trace ++ (s.dueDirEvents ++ [.wr s.pins.latch n.toNat s.params.latchActive])
      ∧ t.lvLatch = some s.params.latchActive
      ∧ t.state = .idle ∧ t.buf = s.buf ∧ t.cursor = s.cursor ∧ t.pending = none

/-- What a completed tick leaves unchanged, in every state (42_process.md R123): the pins, `bound`, the capacity, the
responses and the interface always; the flags unless configuration was due; the buffer unless a message was
pending. After it nothing is pending. -/
def Obligations.TickFrame : Prop :=
  ∀ (s t : State) (n : Imm24), exec (.tick n) s = .next t →
    t.params = s.params ∧ t.pins = s.pins ∧ t.bound = s.bound ∧ t.capacity = s.capacity ∧ t.fault = s.fault
    ∧ t.responses = s.responses ∧ SameInterface s t
    ∧ t.pending = none ∧ t.dirPending = false
    ∧ (s.dirPending = false → t.pinConfigured = s.pinConfigured)
    ∧ (s.pending = none → t.buf = s.buf)

/-- A completed tick emits at most one clock pulse, at most one line write and at most three direction events
(42_process.md R131). -/
def Obligations.TickWorkIsBounded : Prop :=
  ∀ (s t : State) (n : Imm24), exec (.tick n) s = .next t →
    ∃ es, t.trace = s.trace ++ es
      ∧ (es.filter Event.isClock).length ≤ 1
      ∧ (es.filter Event.isWr).length ≤ 1
      ∧ (es.filter Event.isDirOut).length ≤ 3
      ∧ ∀ e ∈ es, e.isGrow = false

/-- Under the invariant the 24-bit cursor never wraps in a Transmitting tick (42_process.md R130). -/
def Obligations.CursorNeverWraps : Prop :=
  ∀ (s t : State) (n : Imm24), s.Inv → s.state = .transmitting → s.pending = none →
    exec (.tick n) s = .next t →
    t.cursor.toNat = s.cursor.toNat + 1 ∧ t.cursor.toNat ≤ s.params.maxBits

/-! ### PROCESS -/

/-- A `PROCESS` in a context of no sub-frames completes and changes nothing, even before any `SETUP`
(42_process.md R120). -/
def Obligations.ProcessOfNothing : Prop :=
  ∀ s : State, s.fault = none → s.frame = 0 → exec .process s = .next s

/-- The first step of a `PROCESS` with a sub-frame is the tick at index 0: it completes when that tick does not fault,
with the state `TICK` would leave, and what is left of the batch (42_process.md R120, R121; log 6). -/
def Obligations.ProcessFirstTick : Prop :=
  ∀ s : State, s.fault = none → s.bound = true → 0 < s.frame → s.emptyAt = false →
    ∃ t, exec (.tick 0#24) s = .next t
      ∧ exec .process s = .next { t with batch := if 1 < s.frame then some 1 else none }

/-- A `PROCESS` in a context of `N` sub-frames, its steps one after another, is the `N` ticks `0 .. N-1` in order: the
same next state, or the same fault with the same observation (42_process.md R120, R121; log 5, 6). -/
def Obligations.ProcessIsItsTicks : Prop :=
  ∀ (s : State) (N : Nat) (queue : List HostCommand) (rest : List Turn),
    s.fault = none → s.batch = none → 0 < N →
    s.hostQueue = { words := [0x00000005#32], frame := N } :: queue →
    s.turns = List.replicate N .host ++ rest →
    (∀ u, tickSequence N 0 N s = .next u →
      core.run N s = .next { u with
        hostQueue := queue, turns := rest, issuer := .host, frame := N, batch := none })
    ∧ ∀ c u, tickSequence N 0 N s = .fault (.raised c u) →
        (∃ a, core.run N s = .fault (.raised c a))
        ∧ observation (core.run N s) = observation (tickSequence N 0 N s)

/-- While a `PROCESS` is in progress the Host's next step is its next tick and takes no other command of the Host;
a command of the Writer may fall between two ticks, is carried out whole, and leaves the batch in progress; a message
it sets is the one the next tick adopts (42_process.md R121). Decision D9. -/
def Obligations.WriterBetweenTicks : Prop :=
  ∀ (s : State) (n : Nat) (rest : List Turn), s.fault = none → s.batch = some n → n < s.frame →
    (∀ t, s.turns = .host :: rest → step s = .next t →
      t.hostQueue = s.hostQueue ∧ t.batch = (if n + 1 < s.frame then some (n + 1) else none)
      ∧ tickStep 0x00000005#32 n s.frame { s with turns := rest, issuer := .host }
          = .next { t with batch := s.batch })
    ∧ (∀ (words : List Word) (queue : List (List Word)) (i : Instr), s.turns = .writer :: rest →
        s.writerQueue = words :: queue → decode words = .ok (i, []) → i.needsFrame = false →
        step s = exec i { s with turns := rest, writerQueue := queue, issuer := .writer }
        ∧ ∀ t, step s = .next t → t.batch = some n ∧ t.frame = s.frame ∧ t.hostQueue = s.hostQueue)
    ∧ (∀ (bits : List Bool) (queue : List (List Word)) (more : List Turn), s.bound = true →
        bits.length ≤ s.params.maxBits → s.turns = .writer :: .host :: more →
        s.writerQueue = encode (.setdata bits) :: queue →
        ∃ t u, step s = .next t ∧ step t = .next u ∧ t.batch = some n ∧ u.buf = bits ∧ u.pending = none)

/-- Every step keeps the index of a batch in progress inside its frame, so no tick of a `PROCESS` ever raises
`FRAME_OUT_OF_RANGE` (42_process.md R120). -/
def Obligations.BatchStaysInFrame : Prop :=
  let inside := fun s : State => ∀ n, s.batch = some n → n < s.frame
  (∀ s t, inside s → step s = .next t → inside t)
  ∧ (∀ s n rest c a, inside s → s.batch = some n → s.turns = .host :: rest →
      step s = .fault (.raised c a) → c.cause ≠ .frameOutOfRange)
  ∧ ∀ s c a, exec .process s = .fault (.raised c a) → c.cause ≠ .frameOutOfRange

/-! ### The step -/

/-- A step runs the decoded command: when the next command of the agent whose turn it is decodes to `i`, the step is
`exec i` on the state with that turn and command taken, the agent noted and, for the Host, its frame context set
(00_scope.md R7 to R9; log 5, 8). -/
def Obligations.StepRunsDecodedCommand : Prop :=
  (∀ (s : State) (c : HostCommand) (queue : List HostCommand) (rest : List Turn) (i : Instr),
    s.fault = none → s.batch = none → s.turns = .host :: rest → s.hostQueue = c :: queue →
    decode c.words = .ok (i, []) →
    step s = exec i { s with turns := rest, hostQueue := queue, issuer := .host, frame := c.frame })
  ∧ ∀ (s : State) (words : List Word) (queue : List (List Word)) (rest : List Turn) (i : Instr),
    s.fault = none → s.turns = .writer :: rest → s.writerQueue = words :: queue →
    decode words = .ok (i, []) → i.needsFrame = false →
    step s = exec i { s with turns := rest, writerQueue := queue, issuer := .writer }

/-- Either agent's command with an illegal header raises `ILLEGAL_COMMAND`, which records the header, whatever payload
follows (60_exceptions.md R151). Decision D18. -/
def Obligations.IllegalHeaderFaults : Prop :=
  ∀ (s : State) (h : Word) (ps : List Word) (rest : List Turn), s.fault = none →
    (h.toNat % 16 = 0 ∨ 6 ≤ h.toNat % 16 ∨ h.toNat / 16 % 16 ≠ 0
      ∨ ((h.toNat % 16 = 3 ∨ h.toNat % 16 = 5) ∧ h.toNat / 256 ≠ 0)) →
    (∀ N queue, s.batch = none → s.turns = .host :: rest →
      s.hostQueue = { words := h :: ps, frame := N } :: queue →
      ∃ a, step s = .fault (.raised (.illegalCommand h) a) ∧ a.fault = some .illegalCommand)
    ∧ (∀ queue, s.turns = .writer :: rest → s.writerQueue = (h :: ps) :: queue →
      ∃ a, step s = .fault (.raised (.illegalCommand h) a) ∧ a.fault = some .illegalCommand)
    ∧ Cause.illegalCommand.code.toNat = 1

/-- The fault outcome (60_exceptions.md R150): precise, so that nothing but the fault register differs from the state
the command met; absorbing, for every command and every step but a reset; never the state a completed step leaves; and
left by reset. Decision D19. That `stuck` stands for having no step, and that a reset is a turn with a step from every
state, are the model's form (log 4, 11). -/
def Obligations.FaultIsPreciseAndAbsorbing : Prop :=
  (∀ (i : Instr) (s a : State) (c : Raised), exec i s = .fault (.raised c a) →
    a = { s with fault := some c.cause })
  ∧ (∀ (i : Instr) (s : State), s.fault ≠ none → exec i s = .fault (.stuck s))
  ∧ (∀ s : State, s.fault ≠ none → s.turns.head? ≠ some .reset → step s = .fault (.stuck s))
  ∧ (∀ s t : State, step s = .next t → t.fault = none)
  ∧ (∀ (s : State) (c : Raised) (a : State), step s = .fault (.raised c a) →
      a.fault = some c.cause ∧ a.trace = s.trace ∧ a.responses = s.responses ∧ SameTransmission s a
      ∧ a.params = s.params ∧ a.pins = s.pins ∧ a.bound = s.bound ∧ a.pinConfigured = s.pinConfigured
      ∧ a.dirPending = s.dirPending ∧ a.capacity = s.capacity)
  ∧ ∀ (s : State) (rest : List Turn), s.turns = .reset :: rest → ∃ t, step s = .next t ∧ t.fault = none

/-- A model fault puts its cause into `fault` and, in the observation, what its rule records; nothing else is observed of
the faulting step. A run that ends in a fault is observed with that record, and a completed step with no fault and no
record (60_exceptions.md R150, R158, 00_scope.md R15; log 4). -/
def Obligations.FaultIsObservedWithItsRecord : Prop :=
  (∀ (s : State) (c : Raised) (a : State), step s = .fault (.raised c a) →
    observation (step s)
      = some { trace := s.trace, responses := s.responses, fault := some c.cause, recorded := some c })
  ∧ (∀ (k : Nat) (s : State) (c : Raised) (a : State), core.run k s = .fault (.raised c a) →
    ∃ o, observation (core.run k s) = some o ∧ o.fault = some c.cause ∧ o.recorded = some c)
  ∧ ∀ s t : State, step s = .next t →
    observation (step s) = some { trace := t.trace, responses := t.responses, fault := none, recorded := none }

/-- No command is refused in any state. A step refuses only a delivery that is not exactly one whole command, or a
`TICK` or `PROCESS` from the Writer, which holds no frame context (00_scope.md R7, R8, R14; log 8, 9). -/
def Obligations.NoCommandIsRefused : Prop :=
  (∀ (i : Instr) (s : State) (r : Refusal), exec i s ≠ .refused r)
  ∧ ∀ (s : State) (r : Refusal), step s = .refused r →
      (∃ a, r = .notWhole a ∧ ∃ words, (∀ i, decode words ≠ .ok (i, []))
        ∧ ((∃ N, s.hostQueue.head? = some { words := words, frame := N }) ∨ s.writerQueue.head? = some words))
      ∨ (r = .noFrameContext ∧ ∃ words i, s.writerQueue.head? = some words ∧ decode words = .ok (i, [])
        ∧ ((∃ n, i = .tick n) ∨ i = .process))

/-- With no turn given, or a turn of an agent that has issued nothing, the block waits: its own state and its outputs
stay (70_reset_and_hazards.md R181; log 5). -/
def Obligations.WaitsForACommand : Prop :=
  ∀ (s : State) (rest : List Turn), s.fault = none →
    (s.turns = [] → step s = .next s)
    ∧ (s.turns = .host :: rest → s.batch = none → s.hostQueue = [] → step s = .next { s with turns := rest })
    ∧ (s.turns = .writer :: rest → s.writerQueue = [] → step s = .next { s with turns := rest })

/-! ### Whole-machine rules -/

/-- Every step keeps the clauses of 10_state.md R35. -/
def Obligations.StepKeepsInvariant : Prop :=
  ∀ s t : State, s.Inv → step s = .next t → t.Inv

/-- The clauses of 10_state.md R35 hold at reset, under any parameters. -/
def Obligations.InvariantAtReset : Prop :=
  State.reset.Inv ∧ ∀ p : Params, (State.resetWith p).Inv

/-- No step but a reset clears `bound` or `pinConfigured` or lowers the capacity, only adds to the trace and to the
responses (10_state.md R24, R25, R27, 00_scope.md R15). That no step at all, not even a reset, changes the parameters is
the model's form of 00_scope.md R11 (log 1, 11). -/
def Obligations.NothingIsTakenBack : Prop :=
  ∀ s t : State, step s = .next t →
    t.params = s.params
    ∧ (s.turns.head? ≠ some .reset →
        (s.bound = true → t.bound = true) ∧ (s.pinConfigured = true → t.pinConfigured = true)
        ∧ s.capacity.toNat ≤ t.capacity.toNat
        ∧ (∃ es, t.trace = s.trace ++ es) ∧ ∃ rs, t.responses = s.responses ++ rs)

/-- The live buffer is written only by adoption, whole, together with the reset of the transmission: no step but a
reset changes it otherwise (20_memory.md R53). -/
def Obligations.BufferWrittenOnlyByAdoption : Prop :=
  ∀ s t : State, step s = .next t → s.turns.head? ≠ some .reset →
    t.buf = s.buf
    ∨ (s.pending = some t.buf ∧ t.pending = none ∧ t.cursor.toNat = 0 ∧ t.state = .transmitting)

/-- Each element of the block is written only by the commands in its "written by" column: the pins and `bound` by
`SETUP`, `dirPending` by `SETUP` and ticks, `pinConfigured`, the buffer, the state and the cursor by ticks, `pending` by
`SETDATA` and ticks, the capacity by `SETUP` and `SETDATA`, and `fault` by no command that completes (10_state.md R22,
R23). -/
def Obligations.EachElementHasItsWriters : Prop :=
  ∀ (i : Instr) (s t : State), exec i s = .next t →
    ((∀ m d c l, i ≠ .setup m d c l) → t.pins = s.pins ∧ t.bound = s.bound)
    ∧ ((∀ m d c l, i ≠ .setup m d c l) → (∀ n, i ≠ .tick n) → i ≠ .process → t.dirPending = s.dirPending)
    ∧ t.fault = s.fault
    ∧ ((∀ n, i ≠ .tick n) → i ≠ .process →
        t.state = s.state ∧ t.cursor = s.cursor ∧ t.buf = s.buf ∧ t.pinConfigured = s.pinConfigured)
    ∧ ((∀ bits, i ≠ .setdata bits) → (∀ n, i ≠ .tick n) → i ≠ .process → t.pending = s.pending)
    ∧ ((∀ m d c l, i ≠ .setup m d c l) → (∀ bits, i ≠ .setdata bits) → t.capacity = s.capacity)
    ∧ (i ≠ .datasent → t.responses = s.responses)

/-- No step ends in Start, so no tick of a run from reset begins there (42_process.md R129). -/
def Obligations.NoTickBeginsInStart : Prop :=
  State.reset.state ≠ .start ∧ ∀ s t : State, s.state ≠ .start → step s = .next t → t.state ≠ .start

/-- `pinConfigured` is set by the tick that emits the direction events, cleared by no step but reset, and no command's
behaviour depends on it (10_state.md R25). -/
def Obligations.PinConfiguredIsUnobserved : Prop :=
  (∀ (s t : State) (n : Imm24), s.dirPending = true → exec (.tick n) s = .next t → t.pinConfigured = true)
  ∧ (∀ s t : State, step s = .next t → s.turns.head? ≠ some .reset → s.pinConfigured = true →
      t.pinConfigured = true)
  ∧ (∀ rest (s t : State), s.turns = .reset :: rest → step s = .next t → t.pinConfigured = false)
  ∧ ∀ (i : Instr) (s : State) (v : Bool),
      mapState (fun t => { t with pinConfigured := false }) (exec i { s with pinConfigured := v })
        = mapState (fun t => { t with pinConfigured := false }) (exec i s)

/-- A tick neither reads nor writes the capacity: it bounds no message (10_state.md R27). -/
def Obligations.TicksIgnoreCapacity : Prop :=
  ∀ (s : State) (k : Imm24),
    (∀ n : Imm24, exec (.tick n) { s with capacity := k }
      = mapState (fun t => { t with capacity := k }) (exec (.tick n) s))
    ∧ exec .process { s with capacity := k } = mapState (fun t => { t with capacity := k }) (exec .process s)

/-- Before the first `SETUP` no pin event is ever emitted: an invariant of every step (60_exceptions.md R152,
95_test_vectors.md P4). -/
def Obligations.NoPinEventBeforeSetup : Prop :=
  let quiet := fun s : State => s.bound = false →
    s.dirPending = false ∧ s.pinConfigured = false ∧ ∀ e ∈ s.trace, e.isGrow = true
  quiet State.reset ∧ ∀ s t : State, quiet s → step s = .next t → quiet t

/-- The premise that one agent issues every `SETDATA` still to come is kept by every step (70_reset_and_hazards.md
R190; the model's form of that premise, log 10). -/
def Obligations.OneWriterIsKept : Prop :=
  ∀ s t : State, s.oneWriter = true → step s = .next t → t.oneWriter = true

/-- The latch is driven active only by the Stop tick of a message whose every bit has been shifted and that no new
message supersedes: an abandoned message is never committed (42_process.md R128, R135). -/
def Obligations.AbandonedIsNeverCommitted : Prop :=
  ∀ (s t : State) (n : Imm24), s.Inv → s.pins.data ≠ s.pins.latch → exec (.tick n) s = .next t →
    ∃ es, t.trace = s.trace ++ es
      ∧ (.wr s.pins.latch n.toNat s.params.latchActive ∈ es →
          s.state = .stop ∧ s.pending = none ∧ s.cursor.toNat = s.buf.length)

/-- Nothing is signed: a 24-bit value with its top bit set is above every value without it, in the capacity of `SETUP`
and of `SETDATA`, in the sub-frame index and in the cursor (00_scope.md R12, 30_encoding.md R77). -/
def Obligations.QuantitiesAreUnsigned : Prop :=
  ∀ s : State, s.fault = none →
    (∀ (m : Imm24) (d c l : PinId), s.capacity.msb = false → m.msb = true → m.toNat ≤ s.params.maxBits →
      ∃ t, exec (.setup m d c l) s = .next t ∧ t.capacity = m)
    ∧ (∀ (m : Imm24) (d c l : PinId), s.capacity.msb = true → m.msb = false → m.toNat ≤ s.params.maxBits →
      ∃ t, exec (.setup m d c l) s = .next t ∧ t.capacity = s.capacity)
    ∧ (∀ bits : List Bool, s.capacity.msb = true → bits.length < 2 ^ 23 → bits.length ≤ s.params.maxBits →
      ∃ t, exec (.setdata bits) s = .next t ∧ t.capacity = s.capacity ∧ t.trace = s.trace)
    ∧ (∀ n : Imm24, s.bound = true → n.msb = true → s.frame ≤ 2 ^ 23 →
      ∃ c a, exec (.tick n) s = .fault (.raised c a) ∧ c.cause = .frameOutOfRange)
    ∧ ∀ n : Imm24, s.bound = true → n.toNat < s.frame → s.pending = none → s.state = .transmitting →
      s.cursor.msb = true → s.buf.length ≤ 2 ^ 23 →
      ∃ c a, exec (.tick n) s = .fault (.raised c a) ∧ c.cause = .emptyMessage

/-! ### A whole transmission -/

/-- A pending message of `L ≥ 1` bits takes exactly `L + 2` ticks in their frames to Idle, and the trace is the Start
write, then each bit's data write and clock pulse in order, then the one active latch write (42_process.md R132, R133,
R134). -/
def Obligations.TransmissionTakesLengthPlusTwoTicks : Prop :=
  ∀ (s : State) (bits : List Bool) (first last : Imm24 × Nat) (mid : List (Imm24 × Nat)),
    s.Inv → s.fault = none → s.bound = true → s.pending = some bits → 0 < bits.length →
    mid.length = bits.length → inFrames (first :: (mid ++ [last])) = true →
    ∃ t, runTicks (first :: (mid ++ [last])) s = .next t
      ∧ t.state = .idle ∧ t.pending = none ∧ t.buf = bits ∧ t.cursor.toNat = bits.length
      ∧ t.trace = s.trace ++ (s.dueDirEvents
          ++ transmissionEvents s.pins s.params.latchActive bits first.1.toNat (mid.map fun x => x.1.toNat)
              last.1.toNat)

/-- dataSent is 0 from the `SETDATA` through every proper prefix of the message's `L + 2` ticks, all of which
complete, and 1 after the last (42_process.md R136; Stop counts as 0, 90_conflicts.md C1). -/
def Obligations.DataSentFalseUntilStopTick : Prop :=
  ∀ (s : State) (bits : List Bool) (ticks : List (Imm24 × Nat)),
    s.Inv → s.fault = none → s.bound = true → bits.length ≤ s.params.maxBits → 0 < bits.length →
    ticks.length = bits.length + 2 → inFrames ticks = true →
    ∃ t, exec (.setdata bits) s = .next t ∧ t.dataSent = false
      ∧ (∀ k, k < bits.length + 2 → ∃ u, runTicks (ticks.take k) t = .next u ∧ u.dataSent = false)
      ∧ ∃ u, runTicks ticks t = .next u ∧ u.dataSent = true

/-- The external register: the ticks of a whole transmission leave on its outputs what was left in its stages followed
by the message, first bit first, and nothing shifted since (00_scope.md R17; the register is the model's reading of
it, log 13; where the clock pin is also the data or the latch pin, that a pulse moves neither line is the model's choice
there). -/
def Obligations.CommitShowsTheMessage : Prop :=
  ∀ (s : State) (bits : List Bool) (ticks : List (Imm24 × Nat)),
    s.Inv → s.fault = none → s.bound = true → s.pending = some bits → 0 < bits.length →
    ticks.length = bits.length + 2 → inFrames ticks = true → s.pins.data ≠ s.pins.latch →
    ∃ t es, runTicks ticks s = .next t ∧ t.trace = s.trace ++ es
      ∧ ∀ (r : Register) (old : List (Option Level)), r.shifted = some old →
          (r.seeAll s.pins s.params.latchActive es).outputs = some (old ++ bits.map some)
          ∧ (r.seeAll s.pins s.params.latchActive es).shifted = some []

/-- In batches of `N ≥ 1` sub-frames a message pending at sub-frame 0 reaches Idle during batch number
`ceil((L + 2) / N)`, and no earlier (70_reset_and_hazards.md R194). -/
def Obligations.BatchesUntilIdle : Prop :=
  ∀ (s : State) (bits : List Bool) (N : Nat),
    s.Inv → s.fault = none → s.bound = true → s.pending = some bits → 0 < bits.length → 0 < N →
    (∃ t, runBatches N ((bits.length + 2 + N - 1) / N) s = .next t ∧ t.dataSent = true)
    ∧ ∀ b, b < (bits.length + 2 + N - 1) / N →
        ∃ t, runBatches N b s = .next t ∧ t.dataSent = false
end

