-- ==== Sys2Proof/Laws/Decode.lean ====
section
/-! SUPPORT. The header fields as numbers, the header each form packs, and the bits of packed message words. -/

namespace Sys2Proof

theorem opOf_toNat (h : Word) : (opOf h).toNat = h.toNat % 16 := by
  simp [opOf]

theorem rsvdOf_toNat (h : Word) : (rsvdOf h).toNat = h.toNat / 16 % 16 := by
  simp [rsvdOf, Nat.shiftRight_eq_div_pow]

theorem imm24Of_toNat (h : Word) : (imm24Of h).toNat = h.toNat / 256 := by
  have := h.isLt
  simp [imm24Of, Nat.shiftRight_eq_div_pow]
  omega

theorem imm24Of_eq (h : Word) : imm24Of h = BitVec.ofNat 24 (h.toNat / 256) := by
  apply BitVec.eq_of_toNat_eq
  rw [imm24Of_toNat, BitVec.toNat_ofNat]
  have := h.isLt
  omega

theorem packHeader_toNat (imm : Imm24) (op : Word) (hop : op.toNat < 256) :
    (packHeader imm op).toNat = imm.toNat * 256 + op.toNat := by
  have := imm.isLt
  have hs : imm.toNat <<< 8 % 2 ^ 32 = 2 ^ 8 * imm.toNat := by
    rw [Nat.shiftLeft_eq]
    omega
  have hi : (imm.setWidth 32).toNat = imm.toNat := by
    simp only [BitVec.toNat_setWidth]
    omega
  rw [packHeader, BitVec.toNat_or, BitVec.toNat_shiftLeft, hi, hs, ← Nat.two_pow_add_eq_or_of_lt hop]
  omega

theorem opOf_packHeader (imm : Imm24) (op : Word) (hop : op.toNat < 16) :
    opOf (packHeader imm op) = BitVec.ofNat 4 op.toNat := by
  apply BitVec.eq_of_toNat_eq
  rw [opOf_toNat, packHeader_toNat imm op (by omega), BitVec.toNat_ofNat]
  omega

theorem rsvdOf_packHeader (imm : Imm24) (op : Word) (hop : op.toNat < 16) : rsvdOf (packHeader imm op) = 0#4 := by
  apply BitVec.eq_of_toNat_eq
  rw [rsvdOf_toNat, packHeader_toNat imm op (by omega)]
  simp only [BitVec.toNat_ofNat]
  omega

theorem imm24Of_packHeader (imm : Imm24) (op : Word) (hop : op.toNat < 16) : imm24Of (packHeader imm op) = imm := by
  apply BitVec.eq_of_toNat_eq
  rw [imm24Of_toNat, packHeader_toNat imm op (by omega)]
  omega

theorem testBit_bitsToNat (bits : List Bool) (i : Nat) : (bitsToNat bits).testBit i = bits.getD i false := by
  induction bits generalizing i with
  | nil => simp [bitsToNat]
  | cons b bs ih =>
    cases i with
    | zero => cases b <;> simp [bitsToNat, Nat.testBit_zero]
    | succ i =>
      have : (b.toNat + 2 * bitsToNat bs) / 2 = bitsToNat bs := by
        have := b.toNat_lt
        omega
      rw [bitsToNat, Nat.testBit_succ, this, ih]
      simp

/-- Bit `k mod 32` of packed word `k div 32` is message bit `k`. -/
theorem getLsbD_messageWord (bits : List Bool) (k : Nat) :
    (messageWord bits (k / 32)).getLsbD (k % 32) = bits.getD k false := by
  have hk : k % 32 < 32 := Nat.mod_lt _ (by omega)
  have e : 32 * (k / 32) + k % 32 = k := by omega
  rw [messageWord, BitVec.getLsbD_ofNat, testBit_bitsToNat]
  simp [hk, List.getElem?_drop, e]

theorem packMessage_length (bits : List Bool) : (packMessage bits).length = payloadCount bits.length := by
  simp [packMessage]

theorem packMessage_getD (bits : List Bool) (k : Nat) (hk : k < bits.length) :
    (packMessage bits).getD (k / 32) 0#32 = messageWord bits (k / 32) := by
  have : k / 32 < payloadCount bits.length := by
    unfold payloadCount
    omega
  simp [packMessage, List.getElem?_range this]

theorem messageBits_length (len : Nat) (ps : List Word) : (messageBits len ps).length = len := by
  simp [messageBits]

theorem messageBits_getElem? (len : Nat) (ps : List Word) (k : Nat) (hk : k < len) :
    (messageBits len ps)[k]? = some ((ps.getD (k / 32) 0#32).getLsbD (k % 32)) := by
  simp [messageBits, List.getElem?_range hk]

/-- What the decoder answers on a legal header with enough payload words. -/
theorem decode_of_form {h : Word} {f : Form} (hf : decodeHeader h = some f) (ps rest : List Word)
    (hl : ps.length = f.payload) : decode (h :: (ps ++ rest)) = .ok (assemble f ps, rest) := by
  simp [decode, hf, hl.symm]

end Sys2Proof
end

