-- ==== Sys2Proof/Laws/State.lean ====
section
/-! SUPPORT. What each state update leaves in each field, so that no later proof unfolds a record update. -/

namespace Sys2Proof.Machine

/-! ### `State.emit` -/

@[simp] theorem State.emit_params (s : State) (es : List Event) : (s.emit es).params = s.params := rfl
@[simp] theorem State.emit_pins (s : State) (es : List Event) : (s.emit es).pins = s.pins := rfl
@[simp] theorem State.emit_bound (s : State) (es : List Event) : (s.emit es).bound = s.bound := rfl
@[simp] theorem State.emit_pinConfigured (s : State) (es : List Event) : (s.emit es).pinConfigured = s.pinConfigured := rfl
@[simp] theorem State.emit_dirPending (s : State) (es : List Event) : (s.emit es).dirPending = s.dirPending := rfl
@[simp] theorem State.emit_capacity (s : State) (es : List Event) : (s.emit es).capacity = s.capacity := rfl
@[simp] theorem State.emit_buf (s : State) (es : List Event) : (s.emit es).buf = s.buf := rfl
@[simp] theorem State.emit_pending (s : State) (es : List Event) : (s.emit es).pending = s.pending := rfl
@[simp] theorem State.emit_state (s : State) (es : List Event) : (s.emit es).state = s.state := rfl
@[simp] theorem State.emit_cursor (s : State) (es : List Event) : (s.emit es).cursor = s.cursor := rfl
@[simp] theorem State.emit_fault (s : State) (es : List Event) : (s.emit es).fault = s.fault := rfl
@[simp] theorem State.emit_trace (s : State) (es : List Event) : (s.emit es).trace = s.trace ++ es := rfl
@[simp] theorem State.emit_responses (s : State) (es : List Event) : (s.emit es).responses = s.responses := rfl
@[simp] theorem State.emit_hostQueue (s : State) (es : List Event) : (s.emit es).hostQueue = s.hostQueue := rfl
@[simp] theorem State.emit_writerQueue (s : State) (es : List Event) : (s.emit es).writerQueue = s.writerQueue := rfl
@[simp] theorem State.emit_turns (s : State) (es : List Event) : (s.emit es).turns = s.turns := rfl
@[simp] theorem State.emit_issuer (s : State) (es : List Event) : (s.emit es).issuer = s.issuer := rfl
@[simp] theorem State.emit_frame (s : State) (es : List Event) : (s.emit es).frame = s.frame := rfl
@[simp] theorem State.emit_batch (s : State) (es : List Event) : (s.emit es).batch = s.batch := rfl

/-! ### `State.respond` -/

@[simp] theorem State.respond_params (s : State) (w : Word) : (s.respond w).params = s.params := rfl
@[simp] theorem State.respond_pins (s : State) (w : Word) : (s.respond w).pins = s.pins := rfl
@[simp] theorem State.respond_bound (s : State) (w : Word) : (s.respond w).bound = s.bound := rfl
@[simp] theorem State.respond_pinConfigured (s : State) (w : Word) : (s.respond w).pinConfigured = s.pinConfigured := rfl
@[simp] theorem State.respond_dirPending (s : State) (w : Word) : (s.respond w).dirPending = s.dirPending := rfl
@[simp] theorem State.respond_capacity (s : State) (w : Word) : (s.respond w).capacity = s.capacity := rfl
@[simp] theorem State.respond_buf (s : State) (w : Word) : (s.respond w).buf = s.buf := rfl
@[simp] theorem State.respond_pending (s : State) (w : Word) : (s.respond w).pending = s.pending := rfl
@[simp] theorem State.respond_state (s : State) (w : Word) : (s.respond w).state = s.state := rfl
@[simp] theorem State.respond_cursor (s : State) (w : Word) : (s.respond w).cursor = s.cursor := rfl
@[simp] theorem State.respond_fault (s : State) (w : Word) : (s.respond w).fault = s.fault := rfl
@[simp] theorem State.respond_trace (s : State) (w : Word) : (s.respond w).trace = s.trace := rfl
@[simp] theorem State.respond_responses (s : State) (w : Word) : (s.respond w).responses = s.responses ++ [{ agent := s.issuer, word := w }] := rfl
@[simp] theorem State.respond_hostQueue (s : State) (w : Word) : (s.respond w).hostQueue = s.hostQueue := rfl
@[simp] theorem State.respond_writerQueue (s : State) (w : Word) : (s.respond w).writerQueue = s.writerQueue := rfl
@[simp] theorem State.respond_turns (s : State) (w : Word) : (s.respond w).turns = s.turns := rfl
@[simp] theorem State.respond_issuer (s : State) (w : Word) : (s.respond w).issuer = s.issuer := rfl
@[simp] theorem State.respond_frame (s : State) (w : Word) : (s.respond w).frame = s.frame := rfl
@[simp] theorem State.respond_batch (s : State) (w : Word) : (s.respond w).batch = s.batch := rfl

/-! ### `State.setFault` -/

@[simp] theorem State.setFault_params (s : State) (c : Cause) : (s.setFault c).params = s.params := rfl
@[simp] theorem State.setFault_pins (s : State) (c : Cause) : (s.setFault c).pins = s.pins := rfl
@[simp] theorem State.setFault_bound (s : State) (c : Cause) : (s.setFault c).bound = s.bound := rfl
@[simp] theorem State.setFault_pinConfigured (s : State) (c : Cause) : (s.setFault c).pinConfigured = s.pinConfigured := rfl
@[simp] theorem State.setFault_dirPending (s : State) (c : Cause) : (s.setFault c).dirPending = s.dirPending := rfl
@[simp] theorem State.setFault_capacity (s : State) (c : Cause) : (s.setFault c).capacity = s.capacity := rfl
@[simp] theorem State.setFault_buf (s : State) (c : Cause) : (s.setFault c).buf = s.buf := rfl
@[simp] theorem State.setFault_pending (s : State) (c : Cause) : (s.setFault c).pending = s.pending := rfl
@[simp] theorem State.setFault_state (s : State) (c : Cause) : (s.setFault c).state = s.state := rfl
@[simp] theorem State.setFault_cursor (s : State) (c : Cause) : (s.setFault c).cursor = s.cursor := rfl
@[simp] theorem State.setFault_fault (s : State) (c : Cause) : (s.setFault c).fault = some c := rfl
@[simp] theorem State.setFault_trace (s : State) (c : Cause) : (s.setFault c).trace = s.trace := rfl
@[simp] theorem State.setFault_responses (s : State) (c : Cause) : (s.setFault c).responses = s.responses := rfl
@[simp] theorem State.setFault_hostQueue (s : State) (c : Cause) : (s.setFault c).hostQueue = s.hostQueue := rfl
@[simp] theorem State.setFault_writerQueue (s : State) (c : Cause) : (s.setFault c).writerQueue = s.writerQueue := rfl
@[simp] theorem State.setFault_turns (s : State) (c : Cause) : (s.setFault c).turns = s.turns := rfl
@[simp] theorem State.setFault_issuer (s : State) (c : Cause) : (s.setFault c).issuer = s.issuer := rfl
@[simp] theorem State.setFault_frame (s : State) (c : Cause) : (s.setFault c).frame = s.frame := rfl
@[simp] theorem State.setFault_batch (s : State) (c : Cause) : (s.setFault c).batch = s.batch := rfl

/-! ### `State.bufWrite` -/

@[simp] theorem State.bufWrite_params (s : State) (bits : List Bool) : (s.bufWrite bits).params = s.params := rfl
@[simp] theorem State.bufWrite_pins (s : State) (bits : List Bool) : (s.bufWrite bits).pins = s.pins := rfl
@[simp] theorem State.bufWrite_bound (s : State) (bits : List Bool) : (s.bufWrite bits).bound = s.bound := rfl
@[simp] theorem State.bufWrite_pinConfigured (s : State) (bits : List Bool) : (s.bufWrite bits).pinConfigured = s.pinConfigured := rfl
@[simp] theorem State.bufWrite_dirPending (s : State) (bits : List Bool) : (s.bufWrite bits).dirPending = s.dirPending := rfl
@[simp] theorem State.bufWrite_capacity (s : State) (bits : List Bool) : (s.bufWrite bits).capacity = s.capacity := rfl
@[simp] theorem State.bufWrite_buf (s : State) (bits : List Bool) : (s.bufWrite bits).buf = bits := rfl
@[simp] theorem State.bufWrite_pending (s : State) (bits : List Bool) : (s.bufWrite bits).pending = s.pending := rfl
@[simp] theorem State.bufWrite_state (s : State) (bits : List Bool) : (s.bufWrite bits).state = s.state := rfl
@[simp] theorem State.bufWrite_cursor (s : State) (bits : List Bool) : (s.bufWrite bits).cursor = s.cursor := rfl
@[simp] theorem State.bufWrite_fault (s : State) (bits : List Bool) : (s.bufWrite bits).fault = s.fault := rfl
@[simp] theorem State.bufWrite_trace (s : State) (bits : List Bool) : (s.bufWrite bits).trace = s.trace := rfl
@[simp] theorem State.bufWrite_responses (s : State) (bits : List Bool) : (s.bufWrite bits).responses = s.responses := rfl
@[simp] theorem State.bufWrite_hostQueue (s : State) (bits : List Bool) : (s.bufWrite bits).hostQueue = s.hostQueue := rfl
@[simp] theorem State.bufWrite_writerQueue (s : State) (bits : List Bool) : (s.bufWrite bits).writerQueue = s.writerQueue := rfl
@[simp] theorem State.bufWrite_turns (s : State) (bits : List Bool) : (s.bufWrite bits).turns = s.turns := rfl
@[simp] theorem State.bufWrite_issuer (s : State) (bits : List Bool) : (s.bufWrite bits).issuer = s.issuer := rfl
@[simp] theorem State.bufWrite_frame (s : State) (bits : List Bool) : (s.bufWrite bits).frame = s.frame := rfl
@[simp] theorem State.bufWrite_batch (s : State) (bits : List Bool) : (s.bufWrite bits).batch = s.batch := rfl

/-! ### `State.bindPins` -/

@[simp] theorem State.bindPins_params (s : State) (m : Imm24) (d c l : PinId) : (s.bindPins m d c l).params = s.params := rfl
@[simp] theorem State.bindPins_pins (s : State) (m : Imm24) (d c l : PinId) : (s.bindPins m d c l).pins = { data := d, clock := c, latch := l } := rfl
@[simp] theorem State.bindPins_bound (s : State) (m : Imm24) (d c l : PinId) : (s.bindPins m d c l).bound = true := rfl
@[simp] theorem State.bindPins_pinConfigured (s : State) (m : Imm24) (d c l : PinId) : (s.bindPins m d c l).pinConfigured = s.pinConfigured := rfl
@[simp] theorem State.bindPins_dirPending (s : State) (m : Imm24) (d c l : PinId) : (s.bindPins m d c l).dirPending = true := rfl
@[simp] theorem State.bindPins_capacity (s : State) (m : Imm24) (d c l : PinId) : (s.bindPins m d c l).capacity = maxImm s.capacity m := rfl
@[simp] theorem State.bindPins_buf (s : State) (m : Imm24) (d c l : PinId) : (s.bindPins m d c l).buf = s.buf := rfl
@[simp] theorem State.bindPins_pending (s : State) (m : Imm24) (d c l : PinId) : (s.bindPins m d c l).pending = s.pending := rfl
@[simp] theorem State.bindPins_state (s : State) (m : Imm24) (d c l : PinId) : (s.bindPins m d c l).state = s.state := rfl
@[simp] theorem State.bindPins_cursor (s : State) (m : Imm24) (d c l : PinId) : (s.bindPins m d c l).cursor = s.cursor := rfl
@[simp] theorem State.bindPins_fault (s : State) (m : Imm24) (d c l : PinId) : (s.bindPins m d c l).fault = s.fault := rfl
@[simp] theorem State.bindPins_trace (s : State) (m : Imm24) (d c l : PinId) : (s.bindPins m d c l).trace = s.trace := rfl
@[simp] theorem State.bindPins_responses (s : State) (m : Imm24) (d c l : PinId) : (s.bindPins m d c l).responses = s.responses := rfl
@[simp] theorem State.bindPins_hostQueue (s : State) (m : Imm24) (d c l : PinId) : (s.bindPins m d c l).hostQueue = s.hostQueue := rfl
@[simp] theorem State.bindPins_writerQueue (s : State) (m : Imm24) (d c l : PinId) : (s.bindPins m d c l).writerQueue = s.writerQueue := rfl
@[simp] theorem State.bindPins_turns (s : State) (m : Imm24) (d c l : PinId) : (s.bindPins m d c l).turns = s.turns := rfl
@[simp] theorem State.bindPins_issuer (s : State) (m : Imm24) (d c l : PinId) : (s.bindPins m d c l).issuer = s.issuer := rfl
@[simp] theorem State.bindPins_frame (s : State) (m : Imm24) (d c l : PinId) : (s.bindPins m d c l).frame = s.frame := rfl
@[simp] theorem State.bindPins_batch (s : State) (m : Imm24) (d c l : PinId) : (s.bindPins m d c l).batch = s.batch := rfl

/-! ### `State.publish` -/

@[simp] theorem State.publish_params (s : State) (bits : List Bool) : (s.publish bits).params = s.params := rfl
@[simp] theorem State.publish_pins (s : State) (bits : List Bool) : (s.publish bits).pins = s.pins := rfl
@[simp] theorem State.publish_bound (s : State) (bits : List Bool) : (s.publish bits).bound = s.bound := rfl
@[simp] theorem State.publish_pinConfigured (s : State) (bits : List Bool) : (s.publish bits).pinConfigured = s.pinConfigured := rfl
@[simp] theorem State.publish_dirPending (s : State) (bits : List Bool) : (s.publish bits).dirPending = s.dirPending := rfl
@[simp] theorem State.publish_capacity (s : State) (bits : List Bool) : (s.publish bits).capacity = s.capacity := rfl
@[simp] theorem State.publish_buf (s : State) (bits : List Bool) : (s.publish bits).buf = s.buf := rfl
@[simp] theorem State.publish_pending (s : State) (bits : List Bool) : (s.publish bits).pending = some bits := rfl
@[simp] theorem State.publish_state (s : State) (bits : List Bool) : (s.publish bits).state = s.state := rfl
@[simp] theorem State.publish_cursor (s : State) (bits : List Bool) : (s.publish bits).cursor = s.cursor := rfl
@[simp] theorem State.publish_fault (s : State) (bits : List Bool) : (s.publish bits).fault = s.fault := rfl
@[simp] theorem State.publish_trace (s : State) (bits : List Bool) : (s.publish bits).trace = s.trace := rfl
@[simp] theorem State.publish_responses (s : State) (bits : List Bool) : (s.publish bits).responses = s.responses := rfl
@[simp] theorem State.publish_hostQueue (s : State) (bits : List Bool) : (s.publish bits).hostQueue = s.hostQueue := rfl
@[simp] theorem State.publish_writerQueue (s : State) (bits : List Bool) : (s.publish bits).writerQueue = s.writerQueue := rfl
@[simp] theorem State.publish_turns (s : State) (bits : List Bool) : (s.publish bits).turns = s.turns := rfl
@[simp] theorem State.publish_issuer (s : State) (bits : List Bool) : (s.publish bits).issuer = s.issuer := rfl
@[simp] theorem State.publish_frame (s : State) (bits : List Bool) : (s.publish bits).frame = s.frame := rfl
@[simp] theorem State.publish_batch (s : State) (bits : List Bool) : (s.publish bits).batch = s.batch := rfl

/-! ### `State.afterTick` -/

@[simp] theorem State.afterTick_params (s : State) (n : Nat) : (s.afterTick n).params = s.params := rfl
@[simp] theorem State.afterTick_pins (s : State) (n : Nat) : (s.afterTick n).pins = s.pins := rfl
@[simp] theorem State.afterTick_bound (s : State) (n : Nat) : (s.afterTick n).bound = s.bound := rfl
@[simp] theorem State.afterTick_pinConfigured (s : State) (n : Nat) : (s.afterTick n).pinConfigured = s.pinConfigured := rfl
@[simp] theorem State.afterTick_dirPending (s : State) (n : Nat) : (s.afterTick n).dirPending = s.dirPending := rfl
@[simp] theorem State.afterTick_capacity (s : State) (n : Nat) : (s.afterTick n).capacity = s.capacity := rfl
@[simp] theorem State.afterTick_buf (s : State) (n : Nat) : (s.afterTick n).buf = s.buf := rfl
@[simp] theorem State.afterTick_pending (s : State) (n : Nat) : (s.afterTick n).pending = s.pending := rfl
@[simp] theorem State.afterTick_state (s : State) (n : Nat) : (s.afterTick n).state = s.state := rfl
@[simp] theorem State.afterTick_cursor (s : State) (n : Nat) : (s.afterTick n).cursor = s.cursor := rfl
@[simp] theorem State.afterTick_fault (s : State) (n : Nat) : (s.afterTick n).fault = s.fault := rfl
@[simp] theorem State.afterTick_trace (s : State) (n : Nat) : (s.afterTick n).trace = s.trace := rfl
@[simp] theorem State.afterTick_responses (s : State) (n : Nat) : (s.afterTick n).responses = s.responses := rfl
@[simp] theorem State.afterTick_hostQueue (s : State) (n : Nat) : (s.afterTick n).hostQueue = s.hostQueue := rfl
@[simp] theorem State.afterTick_writerQueue (s : State) (n : Nat) : (s.afterTick n).writerQueue = s.writerQueue := rfl
@[simp] theorem State.afterTick_turns (s : State) (n : Nat) : (s.afterTick n).turns = s.turns := rfl
@[simp] theorem State.afterTick_issuer (s : State) (n : Nat) : (s.afterTick n).issuer = s.issuer := rfl
@[simp] theorem State.afterTick_frame (s : State) (n : Nat) : (s.afterTick n).frame = s.frame := rfl
@[simp] theorem State.afterTick_batch (s : State) (n : Nat) : (s.afterTick n).batch = if n + 1 < s.frame then some (n + 1) else none := rfl

/-! ### `State.takeHost` -/

@[simp] theorem State.takeHost_params (s : State) (c : HostCommand) (q : List HostCommand) : (s.takeHost c q).params = s.params := rfl
@[simp] theorem State.takeHost_pins (s : State) (c : HostCommand) (q : List HostCommand) : (s.takeHost c q).pins = s.pins := rfl
@[simp] theorem State.takeHost_bound (s : State) (c : HostCommand) (q : List HostCommand) : (s.takeHost c q).bound = s.bound := rfl
@[simp] theorem State.takeHost_pinConfigured (s : State) (c : HostCommand) (q : List HostCommand) : (s.takeHost c q).pinConfigured = s.pinConfigured := rfl
@[simp] theorem State.takeHost_dirPending (s : State) (c : HostCommand) (q : List HostCommand) : (s.takeHost c q).dirPending = s.dirPending := rfl
@[simp] theorem State.takeHost_capacity (s : State) (c : HostCommand) (q : List HostCommand) : (s.takeHost c q).capacity = s.capacity := rfl
@[simp] theorem State.takeHost_buf (s : State) (c : HostCommand) (q : List HostCommand) : (s.takeHost c q).buf = s.buf := rfl
@[simp] theorem State.takeHost_pending (s : State) (c : HostCommand) (q : List HostCommand) : (s.takeHost c q).pending = s.pending := rfl
@[simp] theorem State.takeHost_state (s : State) (c : HostCommand) (q : List HostCommand) : (s.takeHost c q).state = s.state := rfl
@[simp] theorem State.takeHost_cursor (s : State) (c : HostCommand) (q : List HostCommand) : (s.takeHost c q).cursor = s.cursor := rfl
@[simp] theorem State.takeHost_fault (s : State) (c : HostCommand) (q : List HostCommand) : (s.takeHost c q).fault = s.fault := rfl
@[simp] theorem State.takeHost_trace (s : State) (c : HostCommand) (q : List HostCommand) : (s.takeHost c q).trace = s.trace := rfl
@[simp] theorem State.takeHost_responses (s : State) (c : HostCommand) (q : List HostCommand) : (s.takeHost c q).responses = s.responses := rfl
@[simp] theorem State.takeHost_hostQueue (s : State) (c : HostCommand) (q : List HostCommand) : (s.takeHost c q).hostQueue = q := rfl
@[simp] theorem State.takeHost_writerQueue (s : State) (c : HostCommand) (q : List HostCommand) : (s.takeHost c q).writerQueue = s.writerQueue := rfl
@[simp] theorem State.takeHost_turns (s : State) (c : HostCommand) (q : List HostCommand) : (s.takeHost c q).turns = s.turns := rfl
@[simp] theorem State.takeHost_issuer (s : State) (c : HostCommand) (q : List HostCommand) : (s.takeHost c q).issuer = .host := rfl
@[simp] theorem State.takeHost_frame (s : State) (c : HostCommand) (q : List HostCommand) : (s.takeHost c q).frame = c.frame := rfl
@[simp] theorem State.takeHost_batch (s : State) (c : HostCommand) (q : List HostCommand) : (s.takeHost c q).batch = s.batch := rfl

/-! ### `State.takeWriter` -/

@[simp] theorem State.takeWriter_params (s : State) (q : List (List Word)) : (s.takeWriter q).params = s.params := rfl
@[simp] theorem State.takeWriter_pins (s : State) (q : List (List Word)) : (s.takeWriter q).pins = s.pins := rfl
@[simp] theorem State.takeWriter_bound (s : State) (q : List (List Word)) : (s.takeWriter q).bound = s.bound := rfl
@[simp] theorem State.takeWriter_pinConfigured (s : State) (q : List (List Word)) : (s.takeWriter q).pinConfigured = s.pinConfigured := rfl
@[simp] theorem State.takeWriter_dirPending (s : State) (q : List (List Word)) : (s.takeWriter q).dirPending = s.dirPending := rfl
@[simp] theorem State.takeWriter_capacity (s : State) (q : List (List Word)) : (s.takeWriter q).capacity = s.capacity := rfl
@[simp] theorem State.takeWriter_buf (s : State) (q : List (List Word)) : (s.takeWriter q).buf = s.buf := rfl
@[simp] theorem State.takeWriter_pending (s : State) (q : List (List Word)) : (s.takeWriter q).pending = s.pending := rfl
@[simp] theorem State.takeWriter_state (s : State) (q : List (List Word)) : (s.takeWriter q).state = s.state := rfl
@[simp] theorem State.takeWriter_cursor (s : State) (q : List (List Word)) : (s.takeWriter q).cursor = s.cursor := rfl
@[simp] theorem State.takeWriter_fault (s : State) (q : List (List Word)) : (s.takeWriter q).fault = s.fault := rfl
@[simp] theorem State.takeWriter_trace (s : State) (q : List (List Word)) : (s.takeWriter q).trace = s.trace := rfl
@[simp] theorem State.takeWriter_responses (s : State) (q : List (List Word)) : (s.takeWriter q).responses = s.responses := rfl
@[simp] theorem State.takeWriter_hostQueue (s : State) (q : List (List Word)) : (s.takeWriter q).hostQueue = s.hostQueue := rfl
@[simp] theorem State.takeWriter_writerQueue (s : State) (q : List (List Word)) : (s.takeWriter q).writerQueue = q := rfl
@[simp] theorem State.takeWriter_turns (s : State) (q : List (List Word)) : (s.takeWriter q).turns = s.turns := rfl
@[simp] theorem State.takeWriter_issuer (s : State) (q : List (List Word)) : (s.takeWriter q).issuer = .writer := rfl
@[simp] theorem State.takeWriter_frame (s : State) (q : List (List Word)) : (s.takeWriter q).frame = s.frame := rfl
@[simp] theorem State.takeWriter_batch (s : State) (q : List (List Word)) : (s.takeWriter q).batch = s.batch := rfl

/-! ### `State.startAction` -/

@[simp] theorem State.startAction_params (s : State) (n : Nat) : (s.startAction n).params = s.params := rfl
@[simp] theorem State.startAction_pins (s : State) (n : Nat) : (s.startAction n).pins = s.pins := rfl
@[simp] theorem State.startAction_bound (s : State) (n : Nat) : (s.startAction n).bound = s.bound := rfl
@[simp] theorem State.startAction_pinConfigured (s : State) (n : Nat) : (s.startAction n).pinConfigured = s.pinConfigured := rfl
@[simp] theorem State.startAction_dirPending (s : State) (n : Nat) : (s.startAction n).dirPending = s.dirPending := rfl
@[simp] theorem State.startAction_capacity (s : State) (n : Nat) : (s.startAction n).capacity = s.capacity := rfl
@[simp] theorem State.startAction_buf (s : State) (n : Nat) : (s.startAction n).buf = s.buf := rfl
@[simp] theorem State.startAction_pending (s : State) (n : Nat) : (s.startAction n).pending = s.pending := rfl
@[simp] theorem State.startAction_state (s : State) (n : Nat) : (s.startAction n).state = .transmitting := rfl
@[simp] theorem State.startAction_cursor (s : State) (n : Nat) : (s.startAction n).cursor = 0#24 := rfl
@[simp] theorem State.startAction_fault (s : State) (n : Nat) : (s.startAction n).fault = s.fault := rfl
@[simp] theorem State.startAction_trace (s : State) (n : Nat) : (s.startAction n).trace = s.trace ++ [.wr s.pins.latch n s.inactiveLevel] := rfl
@[simp] theorem State.startAction_responses (s : State) (n : Nat) : (s.startAction n).responses = s.responses := rfl
@[simp] theorem State.startAction_hostQueue (s : State) (n : Nat) : (s.startAction n).hostQueue = s.hostQueue := rfl
@[simp] theorem State.startAction_writerQueue (s : State) (n : Nat) : (s.startAction n).writerQueue = s.writerQueue := rfl
@[simp] theorem State.startAction_turns (s : State) (n : Nat) : (s.startAction n).turns = s.turns := rfl
@[simp] theorem State.startAction_issuer (s : State) (n : Nat) : (s.startAction n).issuer = s.issuer := rfl
@[simp] theorem State.startAction_frame (s : State) (n : Nat) : (s.startAction n).frame = s.frame := rfl
@[simp] theorem State.startAction_batch (s : State) (n : Nat) : (s.startAction n).batch = s.batch := rfl

/-! ### `State.shiftBit` -/

@[simp] theorem State.shiftBit_params (s : State) (n : Nat) (v : Bool) : (s.shiftBit n v).params = s.params := rfl
@[simp] theorem State.shiftBit_pins (s : State) (n : Nat) (v : Bool) : (s.shiftBit n v).pins = s.pins := rfl
@[simp] theorem State.shiftBit_bound (s : State) (n : Nat) (v : Bool) : (s.shiftBit n v).bound = s.bound := rfl
@[simp] theorem State.shiftBit_pinConfigured (s : State) (n : Nat) (v : Bool) : (s.shiftBit n v).pinConfigured = s.pinConfigured := rfl
@[simp] theorem State.shiftBit_dirPending (s : State) (n : Nat) (v : Bool) : (s.shiftBit n v).dirPending = s.dirPending := rfl
@[simp] theorem State.shiftBit_capacity (s : State) (n : Nat) (v : Bool) : (s.shiftBit n v).capacity = s.capacity := rfl
@[simp] theorem State.shiftBit_buf (s : State) (n : Nat) (v : Bool) : (s.shiftBit n v).buf = s.buf := rfl
@[simp] theorem State.shiftBit_pending (s : State) (n : Nat) (v : Bool) : (s.shiftBit n v).pending = s.pending := rfl
@[simp] theorem State.shiftBit_state (s : State) (n : Nat) (v : Bool) : (s.shiftBit n v).state = if s.cursor.toNat + 1 = s.buf.length then .stop else .transmitting := rfl
@[simp] theorem State.shiftBit_cursor (s : State) (n : Nat) (v : Bool) : (s.shiftBit n v).cursor = s.cursor + 1#24 := rfl
@[simp] theorem State.shiftBit_fault (s : State) (n : Nat) (v : Bool) : (s.shiftBit n v).fault = s.fault := rfl
@[simp] theorem State.shiftBit_trace (s : State) (n : Nat) (v : Bool) : (s.shiftBit n v).trace = s.trace ++ [.wr s.pins.data n v, .clockPulse s.pins.clock n] := rfl
@[simp] theorem State.shiftBit_responses (s : State) (n : Nat) (v : Bool) : (s.shiftBit n v).responses = s.responses := rfl
@[simp] theorem State.shiftBit_hostQueue (s : State) (n : Nat) (v : Bool) : (s.shiftBit n v).hostQueue = s.hostQueue := rfl
@[simp] theorem State.shiftBit_writerQueue (s : State) (n : Nat) (v : Bool) : (s.shiftBit n v).writerQueue = s.writerQueue := rfl
@[simp] theorem State.shiftBit_turns (s : State) (n : Nat) (v : Bool) : (s.shiftBit n v).turns = s.turns := rfl
@[simp] theorem State.shiftBit_issuer (s : State) (n : Nat) (v : Bool) : (s.shiftBit n v).issuer = s.issuer := rfl
@[simp] theorem State.shiftBit_frame (s : State) (n : Nat) (v : Bool) : (s.shiftBit n v).frame = s.frame := rfl
@[simp] theorem State.shiftBit_batch (s : State) (n : Nat) (v : Bool) : (s.shiftBit n v).batch = s.batch := rfl

/-! ### `State.stopAction` -/

@[simp] theorem State.stopAction_params (s : State) (n : Nat) : (s.stopAction n).params = s.params := rfl
@[simp] theorem State.stopAction_pins (s : State) (n : Nat) : (s.stopAction n).pins = s.pins := rfl
@[simp] theorem State.stopAction_bound (s : State) (n : Nat) : (s.stopAction n).bound = s.bound := rfl
@[simp] theorem State.stopAction_pinConfigured (s : State) (n : Nat) : (s.stopAction n).pinConfigured = s.pinConfigured := rfl
@[simp] theorem State.stopAction_dirPending (s : State) (n : Nat) : (s.stopAction n).dirPending = s.dirPending := rfl
@[simp] theorem State.stopAction_capacity (s : State) (n : Nat) : (s.stopAction n).capacity = s.capacity := rfl
@[simp] theorem State.stopAction_buf (s : State) (n : Nat) : (s.stopAction n).buf = s.buf := rfl
@[simp] theorem State.stopAction_pending (s : State) (n : Nat) : (s.stopAction n).pending = s.pending := rfl
@[simp] theorem State.stopAction_state (s : State) (n : Nat) : (s.stopAction n).state = .idle := rfl
@[simp] theorem State.stopAction_cursor (s : State) (n : Nat) : (s.stopAction n).cursor = s.cursor := rfl
@[simp] theorem State.stopAction_fault (s : State) (n : Nat) : (s.stopAction n).fault = s.fault := rfl
@[simp] theorem State.stopAction_trace (s : State) (n : Nat) : (s.stopAction n).trace = s.trace ++ [.wr s.pins.latch n s.activeLevel] := rfl
@[simp] theorem State.stopAction_responses (s : State) (n : Nat) : (s.stopAction n).responses = s.responses := rfl
@[simp] theorem State.stopAction_hostQueue (s : State) (n : Nat) : (s.stopAction n).hostQueue = s.hostQueue := rfl
@[simp] theorem State.stopAction_writerQueue (s : State) (n : Nat) : (s.stopAction n).writerQueue = s.writerQueue := rfl
@[simp] theorem State.stopAction_turns (s : State) (n : Nat) : (s.stopAction n).turns = s.turns := rfl
@[simp] theorem State.stopAction_issuer (s : State) (n : Nat) : (s.stopAction n).issuer = s.issuer := rfl
@[simp] theorem State.stopAction_frame (s : State) (n : Nat) : (s.stopAction n).frame = s.frame := rfl
@[simp] theorem State.stopAction_batch (s : State) (n : Nat) : (s.stopAction n).batch = s.batch := rfl

/-! ### `State.applyReset` -/

@[simp] theorem State.applyReset_params (s : State) : s.applyReset.params = s.params := rfl
@[simp] theorem State.applyReset_pins (s : State) : s.applyReset.pins = { data := 0#32, clock := 0#32, latch := 0#32 } := rfl
@[simp] theorem State.applyReset_bound (s : State) : s.applyReset.bound = false := rfl
@[simp] theorem State.applyReset_pinConfigured (s : State) : s.applyReset.pinConfigured = false := rfl
@[simp] theorem State.applyReset_dirPending (s : State) : s.applyReset.dirPending = false := rfl
@[simp] theorem State.applyReset_capacity (s : State) : s.applyReset.capacity = 0#24 := rfl
@[simp] theorem State.applyReset_buf (s : State) : s.applyReset.buf = [] := rfl
@[simp] theorem State.applyReset_pending (s : State) : s.applyReset.pending = none := rfl
@[simp] theorem State.applyReset_state (s : State) : s.applyReset.state = .idle := rfl
@[simp] theorem State.applyReset_cursor (s : State) : s.applyReset.cursor = 0#24 := rfl
@[simp] theorem State.applyReset_fault (s : State) : s.applyReset.fault = none := rfl
@[simp] theorem State.applyReset_trace (s : State) : s.applyReset.trace = [] := rfl
@[simp] theorem State.applyReset_responses (s : State) : s.applyReset.responses = [] := rfl
@[simp] theorem State.applyReset_hostQueue (s : State) : s.applyReset.hostQueue = s.hostQueue := rfl
@[simp] theorem State.applyReset_writerQueue (s : State) : s.applyReset.writerQueue = s.writerQueue := rfl
@[simp] theorem State.applyReset_turns (s : State) : s.applyReset.turns = s.turns := rfl
@[simp] theorem State.applyReset_issuer (s : State) : s.applyReset.issuer = .host := rfl
@[simp] theorem State.applyReset_frame (s : State) : s.applyReset.frame = 0 := rfl
@[simp] theorem State.applyReset_batch (s : State) : s.applyReset.batch = none := rfl

end Sys2Proof.Machine
end

