-- ==== Sys2Proof/Laws/Ops.lean ====
section
/-! SUPPORT. What the shared operations can answer: raising, the fault guard, the operand checks and the latch
levels. -/

namespace Sys2Proof.Machine

theorem raise_eq (r : Raised) (s : State) : raise r s = .fault (.raised r (s.setFault r.cause)) := rfl

theorem raise_ne_next (r : Raised) (s t : State) : raise r s ≠ .next t := by
  simp [raise]

theorem raise_eq_raised {r c : Raised} {s a : State} (h : raise r s = .fault (.raised c a)) :
    r = c ∧ a = s.setFault c.cause := by
  cases h
  exact ⟨rfl, rfl⟩

theorem whenRunning_of_running {s : State} (h : s.fault = none) (k : Result) : whenRunning s k = k := by
  simp [whenRunning, h]

theorem whenRunning_of_faulted {s : State} (h : s.fault ≠ none) (k : Result) :
    whenRunning s k = .fault (.stuck s) := by
  unfold whenRunning
  cases hf : s.fault with
  | none => exact absurd hf h
  | some c => rfl

/-- A guarded command that answers a next state was not faulted. -/
theorem whenRunning_eq_next {s t : State} {k : Result} (h : whenRunning s k = .next t) :
    s.fault = none ∧ k = .next t := by
  by_cases hf : s.fault = none
  · exact ⟨hf, by rwa [whenRunning_of_running hf] at h⟩
  · rw [whenRunning_of_faulted hf] at h
    cases h

theorem whenRunning_eq_raised {s a : State} {c : Raised} {k : Result}
    (h : whenRunning s k = .fault (.raised c a)) : s.fault = none ∧ k = .fault (.raised c a) := by
  by_cases hf : s.fault = none
  · exact ⟨hf, by rwa [whenRunning_of_running hf] at h⟩
  · rw [whenRunning_of_faulted hf] at h
    cases h

theorem overLimit_iff (s : State) (len : Nat) : overLimit s len = true ↔ s.params.maxBits < len := by
  simp [overLimit]

theorem overLimit_eq_false_iff (s : State) (len : Nat) : overLimit s len = false ↔ len ≤ s.params.maxBits := by
  simp [overLimit]

theorem maxImm_toNat (a b : Imm24) : (maxImm a b).toNat = max a.toNat b.toNat := by
  unfold maxImm
  split <;> omega

theorem Params.maxBits_pos (p : Params) : 1 ≤ p.maxBits := Nat.le_add_left 1 _

theorem Params.maxBits_lt (p : Params) : p.maxBits < 16777216 := by
  have := p.maxBitsLessOne.isLt
  unfold Params.maxBits
  omega

/-- A message that is not above `MAX_BITS` has its exact length as a 24-bit quantity. -/
theorem messageLength_toNat {s : State} {bits : List Bool} (h : bits.length ≤ s.params.maxBits) :
    (messageLength bits).toNat = bits.length := by
  have := Params.maxBits_lt s.params
  simp only [messageLength, BitVec.toNat_ofNat]
  omega

theorem inactiveLevel_ne_activeLevel (s : State) : s.inactiveLevel ≠ s.activeLevel := by
  simp [State.inactiveLevel, State.activeLevel]

end Sys2Proof.Machine
end

