-- ==== Sys2Proof/Laws/Frames.lean ====
section
/-! SUPPORT. Which fields the conditional parts of a command leave unchanged: the growth path, direction configuration,
adoption and the protocol actions. -/

namespace Sys2Proof.Machine

/-! ### What `State.growFor` leaves -/

@[simp] theorem State.growFor_params (s : State) (bits : List Bool) : (s.growFor bits).params = s.params := by
  unfold State.growFor; split <;> rfl

@[simp] theorem State.growFor_pins (s : State) (bits : List Bool) : (s.growFor bits).pins = s.pins := by
  unfold State.growFor; split <;> rfl

@[simp] theorem State.growFor_bound (s : State) (bits : List Bool) : (s.growFor bits).bound = s.bound := by
  unfold State.growFor; split <;> rfl

@[simp] theorem State.growFor_pinConfigured (s : State) (bits : List Bool) : (s.growFor bits).pinConfigured = s.pinConfigured := by
  unfold State.growFor; split <;> rfl

@[simp] theorem State.growFor_dirPending (s : State) (bits : List Bool) : (s.growFor bits).dirPending = s.dirPending := by
  unfold State.growFor; split <;> rfl

@[simp] theorem State.growFor_buf (s : State) (bits : List Bool) : (s.growFor bits).buf = s.buf := by
  unfold State.growFor; split <;> rfl

@[simp] theorem State.growFor_pending (s : State) (bits : List Bool) : (s.growFor bits).pending = s.pending := by
  unfold State.growFor; split <;> rfl

@[simp] theorem State.growFor_state (s : State) (bits : List Bool) : (s.growFor bits).state = s.state := by
  unfold State.growFor; split <;> rfl

@[simp] theorem State.growFor_cursor (s : State) (bits : List Bool) : (s.growFor bits).cursor = s.cursor := by
  unfold State.growFor; split <;> rfl

@[simp] theorem State.growFor_fault (s : State) (bits : List Bool) : (s.growFor bits).fault = s.fault := by
  unfold State.growFor; split <;> rfl

@[simp] theorem State.growFor_responses (s : State) (bits : List Bool) : (s.growFor bits).responses = s.responses := by
  unfold State.growFor; split <;> rfl

@[simp] theorem State.growFor_hostQueue (s : State) (bits : List Bool) : (s.growFor bits).hostQueue = s.hostQueue := by
  unfold State.growFor; split <;> rfl

@[simp] theorem State.growFor_writerQueue (s : State) (bits : List Bool) : (s.growFor bits).writerQueue = s.writerQueue := by
  unfold State.growFor; split <;> rfl

@[simp] theorem State.growFor_turns (s : State) (bits : List Bool) : (s.growFor bits).turns = s.turns := by
  unfold State.growFor; split <;> rfl

@[simp] theorem State.growFor_issuer (s : State) (bits : List Bool) : (s.growFor bits).issuer = s.issuer := by
  unfold State.growFor; split <;> rfl

@[simp] theorem State.growFor_frame (s : State) (bits : List Bool) : (s.growFor bits).frame = s.frame := by
  unfold State.growFor; split <;> rfl

@[simp] theorem State.growFor_batch (s : State) (bits : List Bool) : (s.growFor bits).batch = s.batch := by
  unfold State.growFor; split <;> rfl

/-! ### What `State.configureDirection` leaves -/

@[simp] theorem State.configureDirection_params (s : State) : (s.configureDirection).params = s.params := by
  unfold State.configureDirection; split <;> rfl

@[simp] theorem State.configureDirection_pins (s : State) : (s.configureDirection).pins = s.pins := by
  unfold State.configureDirection; split <;> rfl

@[simp] theorem State.configureDirection_bound (s : State) : (s.configureDirection).bound = s.bound := by
  unfold State.configureDirection; split <;> rfl

@[simp] theorem State.configureDirection_capacity (s : State) : (s.configureDirection).capacity = s.capacity := by
  unfold State.configureDirection; split <;> rfl

@[simp] theorem State.configureDirection_buf (s : State) : (s.configureDirection).buf = s.buf := by
  unfold State.configureDirection; split <;> rfl

@[simp] theorem State.configureDirection_pending (s : State) : (s.configureDirection).pending = s.pending := by
  unfold State.configureDirection; split <;> rfl

@[simp] theorem State.configureDirection_state (s : State) : (s.configureDirection).state = s.state := by
  unfold State.configureDirection; split <;> rfl

@[simp] theorem State.configureDirection_cursor (s : State) : (s.configureDirection).cursor = s.cursor := by
  unfold State.configureDirection; split <;> rfl

@[simp] theorem State.configureDirection_fault (s : State) : (s.configureDirection).fault = s.fault := by
  unfold State.configureDirection; split <;> rfl

@[simp] theorem State.configureDirection_responses (s : State) : (s.configureDirection).responses = s.responses := by
  unfold State.configureDirection; split <;> rfl

@[simp] theorem State.configureDirection_hostQueue (s : State) : (s.configureDirection).hostQueue = s.hostQueue := by
  unfold State.configureDirection; split <;> rfl

@[simp] theorem State.configureDirection_writerQueue (s : State) : (s.configureDirection).writerQueue = s.writerQueue := by
  unfold State.configureDirection; split <;> rfl

@[simp] theorem State.configureDirection_turns (s : State) : (s.configureDirection).turns = s.turns := by
  unfold State.configureDirection; split <;> rfl

@[simp] theorem State.configureDirection_issuer (s : State) : (s.configureDirection).issuer = s.issuer := by
  unfold State.configureDirection; split <;> rfl

@[simp] theorem State.configureDirection_frame (s : State) : (s.configureDirection).frame = s.frame := by
  unfold State.configureDirection; split <;> rfl

@[simp] theorem State.configureDirection_batch (s : State) : (s.configureDirection).batch = s.batch := by
  unfold State.configureDirection; split <;> rfl

/-! ### What `State.adopt` leaves -/

@[simp] theorem State.adopt_params (s : State) : (s.adopt).params = s.params := by
  unfold State.adopt; split <;> rfl

@[simp] theorem State.adopt_pins (s : State) : (s.adopt).pins = s.pins := by
  unfold State.adopt; split <;> rfl

@[simp] theorem State.adopt_bound (s : State) : (s.adopt).bound = s.bound := by
  unfold State.adopt; split <;> rfl

@[simp] theorem State.adopt_pinConfigured (s : State) : (s.adopt).pinConfigured = s.pinConfigured := by
  unfold State.adopt; split <;> rfl

@[simp] theorem State.adopt_dirPending (s : State) : (s.adopt).dirPending = s.dirPending := by
  unfold State.adopt; split <;> rfl

@[simp] theorem State.adopt_capacity (s : State) : (s.adopt).capacity = s.capacity := by
  unfold State.adopt; split <;> rfl

@[simp] theorem State.adopt_fault (s : State) : (s.adopt).fault = s.fault := by
  unfold State.adopt; split <;> rfl

@[simp] theorem State.adopt_trace (s : State) : (s.adopt).trace = s.trace := by
  unfold State.adopt; split <;> rfl

@[simp] theorem State.adopt_responses (s : State) : (s.adopt).responses = s.responses := by
  unfold State.adopt; split <;> rfl

@[simp] theorem State.adopt_hostQueue (s : State) : (s.adopt).hostQueue = s.hostQueue := by
  unfold State.adopt; split <;> rfl

@[simp] theorem State.adopt_writerQueue (s : State) : (s.adopt).writerQueue = s.writerQueue := by
  unfold State.adopt; split <;> rfl

@[simp] theorem State.adopt_turns (s : State) : (s.adopt).turns = s.turns := by
  unfold State.adopt; split <;> rfl

@[simp] theorem State.adopt_issuer (s : State) : (s.adopt).issuer = s.issuer := by
  unfold State.adopt; split <;> rfl

@[simp] theorem State.adopt_frame (s : State) : (s.adopt).frame = s.frame := by
  unfold State.adopt; split <;> rfl

@[simp] theorem State.adopt_batch (s : State) : (s.adopt).batch = s.batch := by
  unfold State.adopt; split <;> rfl

/-! ### What `State.transmitAction` leaves -/

@[simp] theorem State.transmitAction_params (s : State) (n : Nat) : (s.transmitAction n).params = s.params := by
  unfold State.transmitAction; split <;> rfl

@[simp] theorem State.transmitAction_pins (s : State) (n : Nat) : (s.transmitAction n).pins = s.pins := by
  unfold State.transmitAction; split <;> rfl

@[simp] theorem State.transmitAction_bound (s : State) (n : Nat) : (s.transmitAction n).bound = s.bound := by
  unfold State.transmitAction; split <;> rfl

@[simp] theorem State.transmitAction_pinConfigured (s : State) (n : Nat) : (s.transmitAction n).pinConfigured = s.pinConfigured := by
  unfold State.transmitAction; split <;> rfl

@[simp] theorem State.transmitAction_dirPending (s : State) (n : Nat) : (s.transmitAction n).dirPending = s.dirPending := by
  unfold State.transmitAction; split <;> rfl

@[simp] theorem State.transmitAction_capacity (s : State) (n : Nat) : (s.transmitAction n).capacity = s.capacity := by
  unfold State.transmitAction; split <;> rfl

@[simp] theorem State.transmitAction_buf (s : State) (n : Nat) : (s.transmitAction n).buf = s.buf := by
  unfold State.transmitAction; split <;> rfl

@[simp] theorem State.transmitAction_pending (s : State) (n : Nat) : (s.transmitAction n).pending = s.pending := by
  unfold State.transmitAction; split <;> rfl

@[simp] theorem State.transmitAction_fault (s : State) (n : Nat) : (s.transmitAction n).fault = s.fault := by
  unfold State.transmitAction; split <;> rfl

@[simp] theorem State.transmitAction_responses (s : State) (n : Nat) : (s.transmitAction n).responses = s.responses := by
  unfold State.transmitAction; split <;> rfl

@[simp] theorem State.transmitAction_hostQueue (s : State) (n : Nat) : (s.transmitAction n).hostQueue = s.hostQueue := by
  unfold State.transmitAction; split <;> rfl

@[simp] theorem State.transmitAction_writerQueue (s : State) (n : Nat) : (s.transmitAction n).writerQueue = s.writerQueue := by
  unfold State.transmitAction; split <;> rfl

@[simp] theorem State.transmitAction_turns (s : State) (n : Nat) : (s.transmitAction n).turns = s.turns := by
  unfold State.transmitAction; split <;> rfl

@[simp] theorem State.transmitAction_issuer (s : State) (n : Nat) : (s.transmitAction n).issuer = s.issuer := by
  unfold State.transmitAction; split <;> rfl

@[simp] theorem State.transmitAction_frame (s : State) (n : Nat) : (s.transmitAction n).frame = s.frame := by
  unfold State.transmitAction; split <;> rfl

@[simp] theorem State.transmitAction_batch (s : State) (n : Nat) : (s.transmitAction n).batch = s.batch := by
  unfold State.transmitAction; split <;> rfl

/-! ### What `State.protocolAction` leaves -/

@[simp] theorem State.protocolAction_params (s : State) (n : Nat) : (s.protocolAction n).params = s.params := by
  unfold State.protocolAction; split <;> simp

@[simp] theorem State.protocolAction_pins (s : State) (n : Nat) : (s.protocolAction n).pins = s.pins := by
  unfold State.protocolAction; split <;> simp

@[simp] theorem State.protocolAction_bound (s : State) (n : Nat) : (s.protocolAction n).bound = s.bound := by
  unfold State.protocolAction; split <;> simp

@[simp] theorem State.protocolAction_pinConfigured (s : State) (n : Nat) : (s.protocolAction n).pinConfigured = s.pinConfigured := by
  unfold State.protocolAction; split <;> simp

@[simp] theorem State.protocolAction_dirPending (s : State) (n : Nat) : (s.protocolAction n).dirPending = s.dirPending := by
  unfold State.protocolAction; split <;> simp

@[simp] theorem State.protocolAction_capacity (s : State) (n : Nat) : (s.protocolAction n).capacity = s.capacity := by
  unfold State.protocolAction; split <;> simp

@[simp] theorem State.protocolAction_buf (s : State) (n : Nat) : (s.protocolAction n).buf = s.buf := by
  unfold State.protocolAction; split <;> simp

@[simp] theorem State.protocolAction_pending (s : State) (n : Nat) : (s.protocolAction n).pending = s.pending := by
  unfold State.protocolAction; split <;> simp

@[simp] theorem State.protocolAction_fault (s : State) (n : Nat) : (s.protocolAction n).fault = s.fault := by
  unfold State.protocolAction; split <;> simp

@[simp] theorem State.protocolAction_responses (s : State) (n : Nat) : (s.protocolAction n).responses = s.responses := by
  unfold State.protocolAction; split <;> simp

@[simp] theorem State.protocolAction_hostQueue (s : State) (n : Nat) : (s.protocolAction n).hostQueue = s.hostQueue := by
  unfold State.protocolAction; split <;> simp

@[simp] theorem State.protocolAction_writerQueue (s : State) (n : Nat) : (s.protocolAction n).writerQueue = s.writerQueue := by
  unfold State.protocolAction; split <;> simp

@[simp] theorem State.protocolAction_turns (s : State) (n : Nat) : (s.protocolAction n).turns = s.turns := by
  unfold State.protocolAction; split <;> simp

@[simp] theorem State.protocolAction_issuer (s : State) (n : Nat) : (s.protocolAction n).issuer = s.issuer := by
  unfold State.protocolAction; split <;> simp

@[simp] theorem State.protocolAction_frame (s : State) (n : Nat) : (s.protocolAction n).frame = s.frame := by
  unfold State.protocolAction; split <;> simp

@[simp] theorem State.protocolAction_batch (s : State) (n : Nat) : (s.protocolAction n).batch = s.batch := by
  unfold State.protocolAction; split <;> simp

end Sys2Proof.Machine
end

