-- ==== Sys2Proof/Laws/Tick.lean ====
section
/-! SUPPORT. What the parts of a tick do, and what a whole tick can answer (42_process.md R122 to R129). -/

namespace Sys2Proof.Machine

/-! ### Direction configuration and adoption -/

theorem configureDirection_eq (s : State) :
    s.configureDirection
      = { s with
          trace := s.trace ++ s.dueDirEvents
          pinConfigured := s.pinConfigured || s.dirPending
          dirPending := false } := by
  cases h : s.dirPending <;> simp [State.configureDirection, State.dueDirEvents, State.emit, h]
  rw [← h]

theorem adopt_of_none {s : State} (h : s.pending = none) : s.adopt = s := by
  simp [State.adopt, h]

theorem adopt_of_some {s : State} {bits : List Bool} (h : s.pending = some bits) :
    s.adopt = { s with buf := bits, pending := none, cursor := 0#24, state := .start } := by
  simp [State.adopt, h, State.bufWrite]

/-! ### A tick -/

theorem emptyAt_iff (s : State) :
    s.emptyAt = true ↔ s.pending = none ∧ s.state = .transmitting ∧ s.buf.length ≤ s.cursor.toNat := by
  simp [State.emptyAt]

/-- A tick of a bound block inside its frame, with a bit to transmit where it must, completes. -/
theorem tickStep_completes {s : State} {n N : Nat} (header : Word) (hb : s.bound = true) (hn : n < N)
    (he : s.emptyAt = false) :
    tickStep header n N s = .next (s.configureDirection.adopt.protocolAction n) := by
  simp [tickStep, hb, he, outOfFrame, hn]

theorem tickStep_unbound {s : State} (header : Word) (n N : Nat) (hb : s.bound = false) :
    tickStep header n N s = raise (.notConfigured header n) s := by
  simp [tickStep, hb]

theorem tickStep_outOfFrame {s : State} {n N : Nat} (header : Word) (hb : s.bound = true) (hn : N ≤ n) :
    tickStep header n N s = raise (.frameOutOfRange n N) s := by
  simp [tickStep, hb, outOfFrame, hn]

theorem tickStep_empty {s : State} {n N : Nat} (header : Word) (hb : s.bound = true) (hn : n < N)
    (he : s.emptyAt = true) : tickStep header n N s = raise (.emptyMessage header n) s := by
  simp [tickStep, hb, outOfFrame, hn, he]

/-- A tick of a `PROCESS` that faults leaves what the tick leaves. -/
theorem batchTick_of_raise {s : State} {n : Nat} {r : Raised}
    (h : tickStep Instr.process.header n s.frame s = raise r s) : batchTick n s = raise r s := by
  simp [batchTick, h, raise]

/-- Everything a tick can answer. -/
theorem tickStep_cases (header : Word) (n N : Nat) (s : State) :
    (s.bound = false ∧ tickStep header n N s = raise (.notConfigured header n) s)
    ∨ (s.bound = true ∧ N ≤ n ∧ tickStep header n N s = raise (.frameOutOfRange n N) s)
    ∨ (s.bound = true ∧ n < N ∧ s.emptyAt = true ∧ tickStep header n N s = raise (.emptyMessage header n) s)
    ∨ (s.bound = true ∧ n < N ∧ s.emptyAt = false
        ∧ tickStep header n N s = .next (s.configureDirection.adopt.protocolAction n)) := by
  cases hb : s.bound
  · exact .inl ⟨rfl, tickStep_unbound header n N hb⟩
  · by_cases hn : N ≤ n
    · exact .inr (.inl ⟨rfl, hn, tickStep_outOfFrame header hb hn⟩)
    · cases he : s.emptyAt
      · exact .inr (.inr (.inr ⟨rfl, by omega, rfl, tickStep_completes header hb (by omega) he⟩))
      · exact .inr (.inr (.inl ⟨rfl, by omega, rfl, tickStep_empty header hb (by omega) he⟩))

/-- A tick that answers a next state passed its three checks. -/
theorem tickStep_eq_next {header : Word} {n N : Nat} {s t : State} (h : tickStep header n N s = .next t) :
    s.bound = true ∧ n < N ∧ s.emptyAt = false ∧ t = s.configureDirection.adopt.protocolAction n := by
  rcases tickStep_cases header n N s with ⟨-, e⟩ | ⟨-, -, e⟩ | ⟨-, -, -, e⟩ | ⟨hb, hn, he, e⟩
  · exact absurd (e.symm.trans h) (raise_ne_next _ _ _)
  · exact absurd (e.symm.trans h) (raise_ne_next _ _ _)
  · exact absurd (e.symm.trans h) (raise_ne_next _ _ _)
  · rw [e] at h
    cases h
    exact ⟨hb, hn, he, rfl⟩

/-! ### The rows of the transition table (R129) -/

theorem tick_of_pending {s : State} {bits : List Bool} (n : Nat) (hp : s.pending = some bits) :
    s.configureDirection.adopt.protocolAction n
      = { s.configureDirection with
          buf := bits, pending := none, cursor := 0#24, state := .transmitting
          trace := s.configureDirection.trace ++ [.wr s.pins.latch n s.inactiveLevel] } := by
  rw [adopt_of_some (bits := bits) (by simpa using hp)]
  simp [State.protocolAction, State.startAction, State.emit, State.inactiveLevel]

theorem tick_of_idle {s : State} (n : Nat) (hp : s.pending = none) (hs : s.state = .idle) :
    s.configureDirection.adopt.protocolAction n = s.configureDirection := by
  rw [adopt_of_none (by simpa using hp)]
  simp [State.protocolAction, hs]

theorem tick_of_start {s : State} (n : Nat) (hp : s.pending = none) (hs : s.state = .start) :
    s.configureDirection.adopt.protocolAction n = s.configureDirection.startAction n := by
  rw [adopt_of_none (by simpa using hp)]
  simp [State.protocolAction, hs]

theorem tick_of_transmitting {s : State} {v : Bool} (n : Nat) (hp : s.pending = none) (hs : s.state = .transmitting)
    (hv : s.buf[s.cursor.toNat]? = some v) :
    s.configureDirection.adopt.protocolAction n = s.configureDirection.shiftBit n v := by
  rw [adopt_of_none (by simpa using hp)]
  simp [State.protocolAction, State.transmitAction, State.bufRead, hs, hv]

theorem tick_of_stop {s : State} (n : Nat) (hp : s.pending = none) (hs : s.state = .stop) :
    s.configureDirection.adopt.protocolAction n = s.configureDirection.stopAction n := by
  rw [adopt_of_none (by simpa using hp)]
  simp [State.protocolAction, hs]

/-- What a tick that passes its checks begins with. -/
theorem tick_rows {s : State} (he : s.emptyAt = false) :
    (∃ bits, s.pending = some bits)
    ∨ (s.pending = none ∧ s.state = .idle)
    ∨ (s.pending = none ∧ s.state = .start)
    ∨ (∃ v, s.pending = none ∧ s.state = .transmitting ∧ s.buf[s.cursor.toNat]? = some v)
    ∨ (s.pending = none ∧ s.state = .stop) := by
  cases hp : s.pending with
  | some bits => exact .inl ⟨bits, rfl⟩
  | none =>
    right
    cases hs : s.state with
    | idle => exact .inl ⟨rfl, rfl⟩
    | start => exact .inr (.inl ⟨rfl, rfl⟩)
    | stop => exact .inr (.inr (.inr ⟨rfl, rfl⟩))
    | transmitting =>
      have hlt : s.cursor.toNat < s.buf.length := by simpa [State.emptyAt, hp, hs] using he
      exact .inr (.inr (.inl ⟨_, rfl, rfl, List.getElem?_eq_getElem hlt⟩))

end Sys2Proof.Machine
end

