-- ==== Sys2Proof/Laws/Exec.lean ====
section
/-! SUPPORT. What each command's meaning and each step can answer. -/

namespace Sys2Proof.Machine

/-! ### Next states of the commands -/

theorem execSetup_eq_next {m : Imm24} {d c l : PinId} {s t : State} (h : execSetup m d c l s = .next t) :
    s.fault = none ∧ m.toNat ≤ s.params.maxBits ∧ t = s.bindPins m d c l := by
  obtain ⟨hf, h⟩ := whenRunning_eq_next h
  split at h
  · cases h
  · rename_i ho
    cases h
    exact ⟨hf, (overLimit_eq_false_iff _ _).1 (by simpa using ho), rfl⟩

theorem execSetdata_eq_next {bits : List Bool} {s t : State} (h : execSetdata bits s = .next t) :
    s.fault = none ∧ bits.length ≤ s.params.maxBits ∧ t = (s.growFor bits).publish bits := by
  obtain ⟨hf, h⟩ := whenRunning_eq_next h
  split at h
  · cases h
  · rename_i ho
    cases h
    exact ⟨hf, (overLimit_eq_false_iff _ _).1 (by simpa using ho), rfl⟩

theorem execDatasent_eq_next {s t : State} (h : execDatasent s = .next t) :
    s.fault = none ∧ t = s.respond s.dataSentWord := by
  obtain ⟨hf, h⟩ := whenRunning_eq_next h
  cases h
  exact ⟨hf, rfl⟩

theorem execTick_eq_next {n : Imm24} {s t : State} (h : execTick n s = .next t) :
    s.fault = none ∧ s.bound = true ∧ n.toNat < s.frame ∧ s.emptyAt = false
      ∧ t = s.configureDirection.adopt.protocolAction n.toNat := by
  obtain ⟨hf, h⟩ := whenRunning_eq_next h
  exact ⟨hf, tickStep_eq_next h⟩

theorem batchTick_eq_next {n : Nat} {s t : State} (h : batchTick n s = .next t) :
    ∃ u, tickStep Instr.process.header n s.frame s = .next u ∧ t = u.afterTick n := by
  unfold batchTick at h
  cases hk : tickStep Instr.process.header n s.frame s with
  | next u =>
    rw [hk] at h
    cases h
    exact ⟨u, rfl, rfl⟩
  | fault f => rw [hk] at h; cases h
  | refused r => rw [hk] at h; cases h

theorem execProcess_eq_next {s t : State} (h : execProcess s = .next t) :
    s.fault = none
      ∧ ((s.frame = 0 ∧ t = s)
        ∨ (0 < s.frame ∧ ∃ u, tickStep Instr.process.header 0 s.frame s = .next u ∧ t = u.afterTick 0)) := by
  obtain ⟨hf, h⟩ := whenRunning_eq_next h
  refine ⟨hf, ?_⟩
  split at h
  · rename_i h0
    cases h
    exact .inl ⟨h0, rfl⟩
  · rename_i h0
    exact .inr ⟨Nat.pos_of_ne_zero h0, batchTick_eq_next h⟩

/-! ### The growth path -/

theorem growFor_eq (s : State) (bits : List Bool) :
    s.growFor bits
      = { s with
          trace := s.trace ++ (if s.capacity.toNat < bits.length then [.grow s.capacity (messageLength bits)] else [])
          capacity := if s.capacity.toNat < bits.length then messageLength bits else s.capacity } := by
  by_cases h : s.capacity.toNat < bits.length <;> simp [State.growFor, needsGrowth, h, State.emit]

/-! ### A step -/

/-- Carrying out a delivered command answers a next state only through `exec` of the command it decodes to. -/
theorem runCommand_eq_next {a : Agent} {ws : List Word} {s t : State} (h : runCommand a ws s = .next t) :
    ∃ i, decode ws = .ok (i, []) ∧ (a = .writer → i.needsFrame = false) ∧ exec i s = .next t := by
  unfold runCommand at h
  split at h
  · cases h
  · cases h
  · cases h
  · rename_i i hd
    split at h
    · cases h
    · rename_i hw
      exact ⟨i, hd, fun ha => by simpa [ha] using hw, h⟩
  · cases h

/-- Everything a step that answers a next state has done. -/
theorem step_eq_next {s t : State} (h : step s = .next t) :
    (∃ rest, s.turns = .reset :: rest ∧ t = ({ s with turns := rest }).applyReset)
    ∨ (s.fault = none
      ∧ ((s.turns = [] ∧ t = s)
        ∨ (∃ rest, (s.turns = .host :: rest ∨ s.turns = .writer :: rest) ∧ t = { s with turns := rest })
        ∨ (∃ rest n, s.turns = .host :: rest ∧ s.batch = some n
            ∧ batchTick n { s with turns := rest, issuer := .host } = .next t)
        ∨ (∃ rest c queue i, s.turns = .host :: rest ∧ s.batch = none ∧ s.hostQueue = c :: queue
            ∧ decode c.words = .ok (i, [])
            ∧ exec i (({ s with turns := rest }).takeHost c queue) = .next t)
        ∨ (∃ rest ws queue i, s.turns = .writer :: rest ∧ s.writerQueue = ws :: queue
            ∧ decode ws = .ok (i, []) ∧ i.needsFrame = false
            ∧ exec i (({ s with turns := rest }).takeWriter queue) = .next t))) := by
  unfold step stepOf at h
  split at h
  · obtain ⟨hf, h⟩ := whenRunning_eq_next h
    cases h
    exact .inr ⟨hf, .inl ⟨by assumption, rfl⟩⟩
  · cases h
    exact .inl ⟨_, by assumption, rfl⟩
  · rename_i rest hturn
    obtain ⟨hf, h⟩ := whenRunning_eq_next h
    refine .inr ⟨hf, .inr ?_⟩
    unfold hostTurn at h
    split at h
    · rename_i n hb
      exact .inr (.inl ⟨rest, n, hturn, hb, h⟩)
    · rename_i hb
      split at h
      · cases h
        exact .inl ⟨rest, .inl hturn, rfl⟩
      · rename_i c queue hq
        obtain ⟨i, hd, -, he⟩ := runCommand_eq_next h
        exact .inr (.inr (.inl ⟨rest, c, queue, i, hturn, hb, hq, hd, he⟩))
  · rename_i rest hturn
    obtain ⟨hf, h⟩ := whenRunning_eq_next h
    refine .inr ⟨hf, .inr ?_⟩
    unfold writerTurn at h
    split at h
    · cases h
      exact .inl ⟨rest, .inr hturn, rfl⟩
    · rename_i ws queue hq
      obtain ⟨i, hd, hw, he⟩ := runCommand_eq_next h
      exact .inr (.inr (.inr ⟨rest, ws, queue, i, hturn, hq, hd, hw rfl, he⟩))

end Sys2Proof.Machine
end

