-- ==== Sys2Proof/Laws/PerInstr.lean ====
section
/-! SUPPORT. For every command: its header decodes to its own form (30_encoding.md R72 to R78). -/

/-- The header of a well-formed command says that command. -/
def Sys2Proof.Laws.HeaderDecodes.Statement (i : Sys2Proof.Instr) : Prop :=
  i.wellFormed = true → Sys2Proof.decodeHeader i.header = some i.form

namespace Sys2Proof.Laws

theorem HeaderDecodes.setup (m : Imm24) (d c l : PinId) : HeaderDecodes.Statement (.setup m d c l) := by
  intro _
  simp [decodeHeader, Instr.header, Instr.form, Form.header, rsvdOf_packHeader, opOf_packHeader, imm24Of_packHeader]

theorem HeaderDecodes.setdata (bits : List Bool) : HeaderDecodes.Statement (.setdata bits) := by
  intro _
  simp [decodeHeader, Instr.header, Instr.form, Form.header, rsvdOf_packHeader, opOf_packHeader, imm24Of_packHeader]

theorem HeaderDecodes.datasent : HeaderDecodes.Statement .datasent := by
  intro _
  decide

theorem HeaderDecodes.tick (n : Imm24) : HeaderDecodes.Statement (.tick n) := by
  intro _
  simp [decodeHeader, Instr.header, Instr.form, Form.header, rsvdOf_packHeader, opOf_packHeader, imm24Of_packHeader]

theorem HeaderDecodes.process : HeaderDecodes.Statement .process := by
  intro _
  decide

end Sys2Proof.Laws
end

