-- ==== Sys2Proof/Laws/Run.lean ====
section
/-! SUPPORT. Sequences of steps, commands and ticks, taken apart one at a time, and the step for each kind of turn. -/

namespace Sys2Proof.Machine

/-! ### Runs -/

@[simp] theorem core_run_zero (s : State) : core.run 0 s = .next s := rfl

theorem core_run_of_next {s t : State} (k : Nat) (h : step s = .next t) : core.run (k + 1) s = core.run k t := by
  have h' : core.step s = .next t := h
  simp only [Host.Core.run, h']

theorem core_run_of_fault {s : State} {f : Fault} (k : Nat) (h : step s = .fault f) :
    core.run (k + 1) s = .fault f := by
  have h' : core.step s = .fault f := h
  simp only [Host.Core.run, h']

@[simp] theorem runCommands_nil (s : State) : runCommands [] s = .next s := rfl

theorem runCommands_of_next {i : Instr} {s t : State} (rest : List Instr) (h : exec i s = .next t) :
    runCommands (i :: rest) s = runCommands rest t := by
  simp only [runCommands, h]

/-- A sequence of commands that answers a next state went through one after its first command. -/
theorem runCommands_eq_next {i : Instr} {rest : List Instr} {s t : State} (h : runCommands (i :: rest) s = .next t) :
    ∃ u, exec i s = .next u ∧ runCommands rest u = .next t := by
  cases hi : exec i s with
  | next u => exact ⟨u, rfl, by rwa [runCommands_of_next rest hi] at h⟩
  | fault f => simp [runCommands, hi] at h
  | refused r => simp [runCommands, hi] at h

@[simp] theorem runTicks_nil (s : State) : runTicks [] s = .next s := rfl

theorem runTicks_of_next {n : Imm24} {N : Nat} {s t : State} (rest : List (Imm24 × Nat))
    (h : exec (.tick n) { s with frame := N } = .next t) : runTicks ((n, N) :: rest) s = runTicks rest t := by
  simp only [runTicks, h]

/-- Ticks one after another, in two parts. -/
theorem runTicks_append (as bs : List (Imm24 × Nat)) {s t : State} (h : runTicks as s = .next t) :
    runTicks (as ++ bs) s = runTicks bs t := by
  induction as generalizing s with
  | nil => cases h; rfl
  | cons a as ih =>
    obtain ⟨n, N⟩ := a
    cases hx : exec (.tick n) { s with frame := N } with
    | next u =>
      rw [runTicks_of_next _ hx] at h
      rw [List.cons_append, runTicks_of_next _ hx]
      exact ih h
    | fault f => simp [runTicks, hx] at h
    | refused r => simp [runTicks, hx] at h

@[simp] theorem tickSequence_zero (N n : Nat) (s : State) : tickSequence N n 0 s = .next s := rfl

theorem tickSequence_of_next {N n : Nat} {s t : State} (count : Nat)
    (h : tickStep Instr.process.header n N s = .next t) :
    tickSequence N n (count + 1) s = tickSequence N (n + 1) count t := by
  simp only [tickSequence, h]

@[simp] theorem runBatches_zero (N : Nat) (s : State) : runBatches N 0 s = .next s := rfl

theorem runBatches_of_next {N : Nat} {s t : State} (count : Nat) (h : tickSequence N 0 N s = .next t) :
    runBatches N (count + 1) s = runBatches N count t := by
  simp only [runBatches, h]

/-! ### What an outcome lets a claim observe -/

@[simp] theorem observation_next (s : State) :
    observation (.next s)
      = some { trace := s.trace, responses := s.responses, fault := s.fault, recorded := none } := rfl

@[simp] theorem observation_raised (c : Raised) (s : State) :
    observation (.fault (.raised c s))
      = some { trace := s.trace, responses := s.responses, fault := s.fault, recorded := some c } := rfl

/-! ### The step for each kind of turn -/

theorem step_of_faulted {s : State} (h : s.fault ≠ none) (ht : s.turns.head? ≠ some .reset) :
    step s = .fault (.stuck s) := by
  unfold step stepOf
  split
  · exact whenRunning_of_faulted h _
  · rename_i e
    simp [e] at ht
  · exact whenRunning_of_faulted h _
  · exact whenRunning_of_faulted h _

theorem step_of_reset {s : State} {rest : List Turn} (ht : s.turns = .reset :: rest) :
    step s = .next ({ s with turns := rest }).applyReset := by
  simp [step, stepOf, ht]

theorem step_of_host {s : State} {rest : List Turn} (hf : s.fault = none) (ht : s.turns = .host :: rest) :
    step s = hostTurn { s with turns := rest } := by
  simp [step, stepOf, ht, whenRunning, hf]

theorem step_of_writer {s : State} {rest : List Turn} (hf : s.fault = none) (ht : s.turns = .writer :: rest) :
    step s = writerTurn { s with turns := rest } := by
  simp [step, stepOf, ht, whenRunning, hf]

theorem hostTurn_of_batch {s : State} {n : Nat} (hb : s.batch = some n) :
    hostTurn s = batchTick n { s with issuer := .host } := by
  simp [hostTurn, hb]

theorem hostTurn_of_command {s : State} {c : HostCommand} {queue : List HostCommand} (hb : s.batch = none)
    (hq : s.hostQueue = c :: queue) : hostTurn s = runCommand .host c.words (s.takeHost c queue) := by
  simp [hostTurn, hb, hq]

theorem writerTurn_of_command {s : State} {ws : List Word} {queue : List (List Word)}
    (hq : s.writerQueue = ws :: queue) : writerTurn s = runCommand .writer ws (s.takeWriter queue) := by
  simp [writerTurn, hq]

/-- A delivered command that decodes whole is carried out. -/
theorem runCommand_of_decode {a : Agent} {ws : List Word} {i : Instr} (s : State) (hd : decode ws = .ok (i, []))
    (ha : a = .writer → i.needsFrame = false) : runCommand a ws s = exec i s := by
  have : ¬ (a = .writer ∧ i.needsFrame = true) := fun h => by simp [ha h.1] at h
  simp only [runCommand, hd, this, if_false]

/-- An illegal header raises its fault, whatever follows it. -/
theorem runCommand_of_illegal {h : Word} (a : Agent) (ps : List Word) (s : State) (hd : decodeHeader h = none) :
    runCommand a (h :: ps) s = raise (.illegalCommand h) s := by
  simp [runCommand, decode, hd]

end Sys2Proof.Machine
end

