-- ==== Sys2Proof/Tests/Slice0.lean ====
section
/-! SUPPORT. Tests of the model, and for every statement with hypotheses a witness that meets them together. The
expected results stand in 95_test_vectors.md and 30_encoding.md, or are worked by hand from the rules named; pins are
data 0, clock 1, latch 2, and `MAX_BITS` is 64, as there. -/

namespace Sys2Proof.Tests

open Sys2Proof Sys2Proof.Machine

/-! ### Small states -/

/-- `MAX_BITS = max`, latch active at level 1. -/
def paramsOf (max : Nat) (h : max - 1 < 16777215) : Params := { maxBitsLessOne := ⟨max - 1, h⟩, latchActive := true }

def base : State := State.resetWith (paramsOf 64 (by decide))

def small : State := State.resetWith (paramsOf 16 (by decide))

/-- Set up with capacity 8, directions configured, in a context of 8 sub-frames. -/
def ready : State :=
  { base with pins := { data := 0#32, clock := 1#32, latch := 2#32 }, bound := true, pinConfigured := true, capacity := 8#24, frame := 8 }

/-- `ready` at a point of a transmission. -/
def at' (st : TxState) (buf : List Bool) (cursor : Imm24) (pending : Option (List Bool)) : State :=
  { ready with state := st, buf := buf, cursor := cursor, pending := pending }

def hostTo (s : State) (words : List Word) (N : Nat) : State := (s.hostIssues words N).ordered [.host]

def writerTo (s : State) (words : List Word) : State := (s.writerIssues words).ordered [.writer]

def onNext (r : Result) (p : State → Bool) : Bool :=
  match r with
  | .next s => p s
  | .fault _ => false
  | .refused _ => false

def onRaised (r : Result) (p : Raised → State → Bool) : Bool :=
  match r with
  | .next _ => false
  | .fault (.raised c s) => p c s
  | .fault (.stuck _) => false
  | .refused _ => false

/-! ### Well-formedness -/

/-- A length above imm24 cannot be encoded (R73, R77). -/
theorem test_setdata_too_long_ill_formed : (Instr.setdata (List.replicate 16777216 true)).wellFormed = false := by
  rw [Instr.wellFormed, List.length_replicate]
  decide

theorem test_setdata_longest_well_formed : (Instr.setdata (List.replicate 16777215 true)).wellFormed = true := by
  rw [Instr.wellFormed, List.length_replicate]
  decide

/-! ### Decoding (R72 to R76, R83, vectors V-EN) -/

/-- imm24 = 8, rsvd = 0, op = 1. -/
theorem test_decode_setup :
    decode [0b00000000000000000000100000000001#32, 0#32, 1#32, 2#32] = .ok (.setup 8#24 0#32 1#32 2#32, []) := by
  decide

/-- imm24 = 8, rsvd = 0, op = 2; the message's bit 0 is bit 0 of the payload word. -/
theorem test_decode_setdata :
    decode [0b00000000000000000000100000000010#32, 0b00000000000000000000000001001101#32]
      = .ok (.setdata [true, false, true, true, false, false, true, false], []) := by
  decide

/-- V-EN-13: payload bits 3 to 31 are ignored. -/
theorem test_decode_setdata_ignored_bits :
    decode [0x00000302#32, 0xFFFFFFF9#32] = .ok (.setdata [true, false, false], []) := by
  decide

/-- V-EN-14: bit 32 stands in the second payload word. -/
theorem test_decode_setdata_second_word :
    decode [0x00002102#32, 0x00000000#32, 0x00000001#32] = .ok (.setdata (List.replicate 32 false ++ [true]), []) := by
  decide

theorem test_decode_datasent : decode [0b00000000000000000000000000000011#32] = .ok (.datasent, []) := by
  decide

/-- imm24 = 5, rsvd = 0, op = 4. -/
theorem test_decode_tick : decode [0b00000000000000000000010100000100#32] = .ok (.tick 5#24, []) := by
  decide

/-- V-EN-7: the largest index. -/
theorem test_decode_tick_largest : decode [0xFFFFFF04#32] = .ok (.tick 16777215#24, []) := by
  decide

theorem test_decode_process : decode [0b00000000000000000000000000000101#32] = .ok (.process, []) := by
  decide

/-- V-EN-1, 5, 6, 9, 10, V-SU-7, V-PR-6. -/
theorem test_decode_illegal :
    ([0x00000000#32, 0x00000103#32, 0x00000013#32, 0x80000005#32, 0x00000006#32, 0x0000000F#32, 0x00000811#32,
      0x00000105#32].all fun h => decide (decodeHeader h = none)) = true := by
  decide

/-- The command lengths of V-EN-2, 3, 4, 7, 8, 11, 12. -/
theorem test_lengths :
    ([0x00000801#32, 0x00002802#32, 0x00000003#32, 0xFFFFFF04#32, 0x00000005#32, 0x00000002#32, 0x00002002#32,
      0x00002102#32].map lengthWords) = [4, 3, 1, 1, 1, 1, 2, 3] := by
  decide

theorem test_truncated : decode [0x00000801#32, 0#32, 1#32] = .error (.truncated 0x00000801#32) := by
  decide

/-- The rows of the opcode table, their unmentioned bits zero. -/
theorem test_table_words :
    decodeTableWord 32 1 = some (.setup 0#24 0#32 0#32 0#32) ∧ decodeTableWord 32 2 = some (.setdata [])
      ∧ decodeTableWord 32 3 = some .datasent ∧ decodeTableWord 32 4 = some (.tick 0#24)
      ∧ decodeTableWord 32 5 = some .process ∧ decodeTableWord 32 0 = none := by
  decide

/-- A later word's bits count on from the header's. -/
theorem test_table_payload :
    decodeTableWord 128 (0x801 + 7 * 2 ^ 32 + 8 * 2 ^ 64 + 9 * 2 ^ 96) = some (.setup 8#24 7#32 8#32 9#32) := by
  decide

/-! ### Assembler spelling (R81, R83) -/

theorem test_spelling :
    (Instr.setup 8#24 0#32 1#32 2#32).spelling 0 = "setup 8, 0, 1, 2"
      ∧ (Instr.setdata [true, false, true]).spelling 0 = "setdata [1,0,1]"
      ∧ (Instr.setdata []).spelling 0 = "setdata []" ∧ Instr.datasent.spelling 0 = "datasent" := by
  decide

/-! ### Placing a table word on the machine right after reset -/

theorem test_place_setup :
    onNext (step (State.reset.withFetchWord 32 1)) (fun t => t.bound && t.dirPending && t.capacity == 0#24) = true := by
  rfl

theorem test_place_setdata :
    onNext (step (State.reset.withFetchWord 32 2)) (fun t => t.pending == some [] && t.trace == []) = true := by
  rfl

/-- V-DS-1. -/
theorem test_place_datasent :
    onNext (step (State.reset.withFetchWord 32 3)) (fun t => t.responses == [{ agent := .host, word := 1#32 }]) = true := by
  rfl

/-- V-TK-10. -/
theorem test_place_tick :
    onRaised (step (State.reset.withFetchWord 32 4)) (fun c _ => c == .notConfigured 0x00000004#32 0) = true := by
  rfl

/-- V-PR-1. -/
theorem test_place_process :
    onNext (step (State.reset.withFetchWord 32 5)) (fun t => t.trace == [] && t.fault == none) = true := by
  rfl

/-! ### One step of each command -/

/-- V-SU-2: capacity never shrinks. -/
theorem test_setup_keeps_capacity :
    onNext (exec (.setup 8#24 0#32 1#32 2#32) { base with capacity := 40#24 })
      (fun t => t.capacity == 40#24 && t.bound && t.dirPending && t.trace == []) = true := by
  decide

/-- V-SU-3. -/
theorem test_setup_length_limit :
    onRaised (exec (.setup 17#24 0#32 1#32 2#32) small)
      (fun _ a => a.faultCode == 5#3 && a == { small with fault := some .lengthLimit }) = true := by
  decide

/-- V-SD-2. -/
theorem test_setdata_grows :
    onNext (exec (.setdata (List.replicate 9 true)) ready)
      (fun t => t.trace == [.grow 8#24 9#24] && t.capacity == 9#24) = true := by
  decide

/-- V-SD-7: nothing but `pending` changes. -/
theorem test_setdata_in_flight :
    onNext (exec (.setdata [true, false]) (at' .transmitting [true, false] 1#24 none))
      (fun t => t == at' .transmitting [true, false] 1#24 (some [true, false])) = true := by
  decide

/-- V-DS-3 (C1). -/
theorem test_datasent_in_stop :
    onNext (exec .datasent (at' .stop [true] 1#24 none)) (fun t => t.responses == [{ agent := .host, word := 0#32 }])
      = true := by
  decide

/-- V-DS-5. -/
theorem test_datasent_pending :
    onNext (exec .datasent (at' .idle [] 0#24 (some [true])))
      (fun t => t.responses == [{ agent := .host, word := 0#32 }]) = true := by
  decide

/-- V-TK-5. -/
theorem test_tick_last_bit :
    onNext (exec (.tick 5#24) (at' .transmitting [true, false] 1#24 none))
      (fun t => t.trace == [.wr 0#32 5 false, .clockPulse 1#32 5] && t.state == .stop && t.cursor == 2#24) = true := by
  decide

/-- V-TK-8: the message in Stop is never latched. -/
theorem test_tick_supersedes_in_stop :
    onNext (exec (.tick 0#24) (at' .stop [true, false] 2#24 (some [true])))
      (fun t => t.trace == [.wr 2#32 0 false] && t.buf == [true] && t.state == .transmitting && t.cursor == 0#24)
      = true := by
  decide

/-- The first step of V-PR-2. -/
theorem test_process_first_tick :
    onNext (exec .process { at' .idle [] 0#24 (some [true, true, false]) with frame := 4 })
      (fun t => t.trace == [.wr 2#32 0 false] && t.batch == some 1) = true := by
  decide

/-- The second step of V-PR-4. -/
theorem test_process_empty_message :
    onRaised (step (({ at' .transmitting [] 0#24 none with frame := 4, batch := some 1 }).ordered [.host]))
      (fun c a => c == .emptyMessage 0x00000005#32 1 && a.faultCode == 4#3) = true := by
  decide

/-! ### Witnesses of the statements' hypotheses -/

theorem test_ready_inv : ready.Inv :=
  ⟨by decide, by decide, by decide, by simp [ready, base, State.resetWith], by decide, by decide⟩

theorem test_at_inv (st : TxState) (h : st = .stop → False) (hT : st = .transmitting → False) (p : List Bool)
    (hp : p.length ≤ 8) : (at' st [] 0#24 (some p)).Inv := by
  refine ⟨by simp [at'], by simp [at'], ?_, ?_, fun e => (hT e).elim, fun e => (h e).elim⟩
  · exact test_ready_inv.capacity_le
  · intro bits e
    cases e
    exact hp

/-- A two-bit message waiting in Idle. -/
theorem test_pending_inv : (at' .idle [] 0#24 (some [true, false])).Inv :=
  test_at_inv .idle (by simp) (by simp) _ (by decide)

/-- The state of an empty message after its Start tick. -/
theorem test_empty_inv : (at' .transmitting [] 0#24 none).Inv :=
  ⟨by decide, by decide, by decide, by simp [at'], by decide, by decide⟩

theorem test_transmitting_inv : (at' .transmitting [true, false] 1#24 none).Inv :=
  ⟨by decide, by decide, by decide, by simp [at'], by decide, by decide⟩

theorem test_stop_inv : (at' .stop [true, false] 2#24 none).Inv :=
  ⟨by decide, by decide, by decide, by simp [at'], by decide, by decide⟩

/-- One header for each clause, at the ends of `op`'s ranges. -/
theorem test_witness_DecoderFollowsOpcodeMap :
    (0x13#32).toNat / 16 % 16 ≠ 0
      ∧ ((0x801#32).toNat / 16 % 16 = 0 ∧ (0x801#32).toNat % 16 = 1)
      ∧ ((0xFFFFFF02#32).toNat / 16 % 16 = 0 ∧ (0xFFFFFF02#32).toNat % 16 = 2)
      ∧ ((0x103#32).toNat / 16 % 16 = 0 ∧ (0x103#32).toNat % 16 = 3 ∧ (0x103#32).toNat / 256 ≠ 0)
      ∧ ((0x3#32).toNat / 16 % 16 = 0 ∧ (0x3#32).toNat % 16 = 3 ∧ (0x3#32).toNat / 256 = 0)
      ∧ ((0x504#32).toNat / 16 % 16 = 0 ∧ (0x504#32).toNat % 16 = 4)
      ∧ ((0x80000005#32).toNat / 16 % 16 = 0 ∧ (0x80000005#32).toNat % 16 = 5 ∧ (0x80000005#32).toNat / 256 ≠ 0)
      ∧ ((0x5#32).toNat / 16 % 16 = 0 ∧ (0x5#32).toNat % 16 = 5 ∧ (0x5#32).toNat / 256 = 0)
      ∧ ((0x0#32).toNat / 16 % 16 = 0 ∧ (0x0#32).toNat % 16 = 0)
      ∧ ((0x6#32).toNat / 16 % 16 = 0 ∧ 6 ≤ (0x6#32).toNat % 16)
      ∧ decodeHeader 0xF#32 = none
      ∧ (decodeHeader 0x2102#32 = some (.setdata 33#24)
        ∧ [0#32, 1#32].length = (if (0x2102#32).toNat % 16 = 1 then 3
            else if (0x2102#32).toNat % 16 = 2 then ((0x2102#32).toNat / 256 + 31) / 32 else 0)) := by
  decide

/-- The ends of a message: none, one whole word, one bit more; and two payloads that agree on the message. -/
theorem test_witness_MessageBitsFromPayload :
    ([] : List Word).length = ((0#24).toNat + 31) / 32 ∧ [5#32].length = ((32#24).toNat + 31) / 32
      ∧ [0#32, 1#32].length = ((33#24).toNat + 31) / 32 ∧ [0xFFFFFFF9#32].length = ((3#24).toNat + 31) / 32
      ∧ ∀ k : Nat, k < 3 → ([1#32].getD (k / 32) 0#32).getLsbD (k % 32)
          = ([0xFFFFFFF9#32].getD (k / 32) 0#32).getLsbD (k % 32) := by
  decide

theorem test_witness_LengthFromHeaderAlone :
    ∃ i, decode [0x00002102#32, 0#32, 1#32, 5#32] = .ok (i, [5#32]) := ⟨_, rfl⟩

/-- A message of one word and one bit: a bit of the second word, and the bits past the end. -/
theorem test_words_setdata :
    encode (.setdata (List.replicate 32 false ++ [true])) = [0x00002102#32, 0x00000000#32, 0x00000001#32] := by
  decide

theorem test_witness_ResetValues : (ready.ordered [.reset, .host]).turns = .reset :: [.host] := rfl

/-- Both ends of `maxSize`. -/
theorem test_witness_SetupResult :
    ready.fault = none ∧ (0#24).toNat ≤ ready.params.maxBits ∧ (64#24).toNat ≤ ready.params.maxBits := by
  decide

theorem test_witness_LengthLimitFaults :
    small.fault = none ∧ small.params.maxBits < (17#24).toNat
      ∧ small.params.maxBits < (List.replicate 17 true).length := by
  decide

/-- V-SU-6. -/
theorem test_witness_SetupAgainMovesToNewPins :
    let s := at' .transmitting [true, false, true] 1#24 none
    s.fault = none ∧ (8#24).toNat ≤ s.params.maxBits ∧ (4#24).toNat < s.frame ∧ s.emptyAt = false
      ∧ s.state = .transmitting ∧ s.pending = none ∧ s.buf[s.cursor.toNat]? = some false := by
  decide

/-- V-SU-8. -/
theorem test_witness_SetupNeverStartsTransmission :
    (ready.fault = none ∧ ready.bound = true ∧ ready.state = .idle ∧ ready.pending = none)
      ∧ ∀ i ∈ [Instr.setup 8#24 0#32 1#32 2#32, .tick 7#24],
        (∃ m d c l, i = .setup m d c l ∧ m.toNat ≤ ready.params.maxBits) ∨ ∃ n, i = .tick n ∧ n.toNat < ready.frame := by
  refine ⟨by decide, ?_⟩
  intro i hi
  simp only [List.mem_cons, List.not_mem_nil, or_false] at hi
  obtain rfl | rfl := hi
  · exact .inl ⟨_, _, _, _, rfl, by decide⟩
  · exact .inr ⟨_, rfl, by decide⟩

/-- On both sides of the growth path. -/
theorem test_witness_SetdataPublishes :
    ready.fault = none ∧ (List.replicate 9 true).length ≤ ready.params.maxBits
      ∧ ready.capacity.toNat < (List.replicate 9 true).length
      ∧ (List.replicate 8 true).length ≤ ready.capacity.toNat := by
  decide

theorem test_witness_LatestWriteWins :
    ready.fault = none ∧ ready.bound = true ∧ (7#24).toNat < ready.frame
      ∧ [true, true].length ≤ ready.params.maxBits ∧ ([] : List Bool).length ≤ ready.params.maxBits := by
  decide

theorem test_witness_PreSizedRunNeverGrows :
    (∀ bits, Instr.setdata bits ∈ [Instr.setdata (List.replicate 8 true), .tick 0#24] →
      bits.length ≤ ready.capacity.toNat)
      ∧ ∃ t, runCommands [.setdata (List.replicate 8 true), .tick 0#24] ready = .next t := by
  refine ⟨?_, _, rfl⟩
  intro bits h
  simp only [List.mem_cons, Instr.setdata.injEq, reduceCtorEq, List.not_mem_nil, or_false] at h
  subst h
  decide

theorem test_witness_EmptyMessageFaultsOnSecondTick :
    ready.fault = none ∧ ready.bound = true ∧ (0#24).toNat < ready.frame ∧ (7#24).toNat < ready.frame := by
  decide

theorem test_witness_DatasentResponds :
    ready.fault = none ∧ (ready.state = .idle ∧ ready.pending = none)
      ∧ (at' .stop [true] 1#24 none).fault = none
      ∧ ¬ ((at' .stop [true] 1#24 none).state = .idle ∧ (at' .stop [true] 1#24 none).pending = none) := by
  decide

theorem test_witness_NotConfiguredFaults :
    let s : State := { base with frame := 4, batch := some 3, turns := [.host] }
    s.fault = none ∧ s.bound = false ∧ 0 < s.frame ∧ s.batch = some 3 ∧ s.turns = .host :: [] := by
  decide

/-- The first index outside the frame, and a frame of none. -/
theorem test_witness_FrameOutOfRangeFaults :
    (ready.fault = none ∧ ready.bound = true ∧ ready.frame ≤ (8#24).toNat)
      ∧ ({ ready with frame := 0 } : State).frame ≤ (0#24).toNat := by
  decide

theorem test_witness_EmptyMessageFaults :
    let s : State := { at' .transmitting [] 0#24 none with batch := some 7, turns := [.host] }
    s.Inv ∧ s.fault = none ∧ s.bound = true ∧ s.pending = none ∧ s.state = .transmitting
      ∧ s.buf.length ≤ s.cursor.toNat ∧ (7#24).toNat < s.frame ∧ 0 < s.frame ∧ s.batch = some 7 ∧ 7 < s.frame
      ∧ s.turns = .host :: [] := by
  refine ⟨?_, by decide⟩
  exact ⟨by decide, by decide, by decide, by simp [at'], by decide, by decide⟩

/-- One state for each row. -/
theorem test_witness_TickTransitionTable :
    (∀ st, (at' st [true] 0#24 (some [])).fault = none ∧ (at' st [true] 0#24 (some [])).bound = true)
      ∧ (7#24).toNat < ready.frame
      ∧ (at' .stop [true] 1#24 (some [])).pending = some []
      ∧ ((at' .idle [] 0#24 none).pending = none ∧ (at' .idle [] 0#24 none).state = .idle)
      ∧ ((at' .start [] 0#24 none).pending = none ∧ (at' .start [] 0#24 none).state = .start)
      ∧ (at' .transmitting [true, false] 0#24 none).cursor.toNat + 1
          < (at' .transmitting [true, false] 0#24 none).buf.length
      ∧ (at' .transmitting [true, false] 1#24 none).cursor.toNat + 1
          = (at' .transmitting [true, false] 1#24 none).buf.length
      ∧ (at' .transmitting [true, false] 2#24 none).buf.length
          ≤ (at' .transmitting [true, false] 2#24 none).cursor.toNat
      ∧ ((at' .stop [true] 1#24 none).pending = none ∧ (at' .stop [true] 1#24 none).state = .stop) := by
  refine ⟨fun st => ⟨rfl, rfl⟩, by decide⟩

theorem test_witness_TickAdoptsPending :
    let s := at' .transmitting [true, false, true] 1#24 (some [false])
    s.fault = none ∧ s.bound = true ∧ (2#24).toNat < s.frame ∧ s.pending = some [false] := by
  decide

/-- V-TK-1, V-TK-2. -/
theorem test_witness_IdleTickDoesNothing :
    (ready.fault = none ∧ ready.bound = true ∧ (3#24).toNat < ready.frame ∧ ready.state = .idle
      ∧ ready.pending = none ∧ ready.dirPending = false)
      ∧ ({ ready with dirPending := true } : State).dirPending = true := by
  decide

theorem test_witness_StartTick :
    let s := at' .start [true] 0#24 none
    s.fault = none ∧ s.bound = true ∧ (0#24).toNat < s.frame ∧ s.state = .start ∧ s.pending = none := by
  decide

/-- V-TK-16's start state. -/
theorem test_witness_DirectionConfiguredFirst :
    let s : State := { at' .idle [] 0#24 (some [true]) with dirPending := true }
    s.dirPending = true ∧ ∃ t, exec (.tick 0#24) s = .next t := ⟨rfl, _, rfl⟩

/-- The last bit, a bit before it, and the empty buffer. -/
theorem test_witness_TransmittingTick :
    let s := at' .transmitting [true, false] 1#24 none
    let u := at' .transmitting [true, false] 0#24 none
    let e := at' .transmitting [] 0#24 none
    (s.fault = none ∧ s.bound = true ∧ (5#24).toNat < s.frame ∧ s.state = .transmitting ∧ s.pending = none
      ∧ s.buf[s.cursor.toNat]? = some false ∧ s.cursor.toNat + 1 = s.buf.length)
      ∧ (u.buf[u.cursor.toNat]? = some true ∧ u.cursor.toNat + 1 ≠ u.buf.length)
      ∧ e.state = .transmitting ∧ e.pending = none ∧ e.buf = [] := by
  decide

theorem test_witness_StopTick :
    let s := at' .stop [true, false] 2#24 none
    s.fault = none ∧ s.bound = true ∧ (6#24).toNat < s.frame ∧ s.state = .stop ∧ s.pending = none := by
  decide

theorem test_witness_TickFrame :
    ready.dirPending = false ∧ ready.pending = none ∧ ∃ t, exec (.tick 7#24) ready = .next t := ⟨rfl, rfl, _, rfl⟩

theorem test_witness_TickWorkIsBounded :
    ∃ t, exec (.tick 4#24) { at' .transmitting [true, false] 1#24 none with dirPending := true } = .next t := ⟨_, rfl⟩

theorem test_witness_CursorNeverWraps :
    let s := at' .transmitting [true, false] 1#24 none
    s.Inv ∧ s.state = .transmitting ∧ s.pending = none ∧ ∃ t, exec (.tick 4#24) s = .next t :=
  ⟨test_transmitting_inv, rfl, rfl, _, rfl⟩

theorem test_witness_ProcessOfNothing : base.fault = none ∧ base.frame = 0 := by
  decide

theorem test_witness_ProcessFirstTick :
    ready.fault = none ∧ ready.bound = true ∧ 0 < ready.frame ∧ ready.emptyAt = false := by
  decide

/-- V-PR-2 and V-PR-4 as the Host's next command. -/
theorem test_witness_ProcessIsItsTicks :
    let s := fun p : List Bool => ((at' .idle [] 0#24 (some p)).hostIssues [0x00000005#32] 4).ordered
      (List.replicate 4 .host)
    (∀ p, (s p).fault = none ∧ (s p).batch = none ∧ (s p).turns = List.replicate 4 .host ++ []
      ∧ (s p).hostQueue = { words := [0x00000005#32], frame := 4 } :: [])
      ∧ (∃ u, tickSequence 4 0 4 (s [true, true, false]) = .next u)
      ∧ ∃ c u, tickSequence 4 0 4 (s []) = .fault (.raised c u) :=
  ⟨fun _ => ⟨rfl, rfl, rfl, rfl⟩, ⟨_, rfl⟩, _, _, rfl⟩

/-- The start of V-PR-5's interleaving: the Host's tick, the Writer's `DATASENT`, and the Writer's message with the
tick after it. -/
theorem test_witness_WriterBetweenTicks :
    let s : State := { at' .transmitting [true, false, true] 1#24 none with frame := 4, batch := some 2 }
    (s.fault = none ∧ s.batch = some 2 ∧ 2 < s.frame ∧ s.bound = true
      ∧ [false].length ≤ s.params.maxBits)
      ∧ (∃ t, (s.ordered [.host]).turns = .host :: [] ∧ step (s.ordered [.host]) = .next t)
      ∧ ((writerTo s [0x00000003#32]).turns = .writer :: []
        ∧ (writerTo s [0x00000003#32]).writerQueue = [0x00000003#32] :: []
        ∧ decode [0x00000003#32] = .ok (.datasent, []) ∧ Instr.datasent.needsFrame = false
        ∧ ∃ t, step (writerTo s [0x00000003#32]) = .next t)
      ∧ ((writerTo s (encode (.setdata [false]))).ordered [.host]).turns = .writer :: .host :: []
      ∧ ((writerTo s (encode (.setdata [false]))).ordered [.host]).writerQueue = encode (.setdata [false]) :: [] :=
  ⟨by decide, ⟨_, rfl, rfl⟩, ⟨rfl, rfl, by decide, rfl, _, rfl⟩, rfl, rfl⟩

/-- A batch whose next tick is its last completes; one whose tick faults. -/
theorem test_witness_BatchStaysInFrame :
    let s : State := { ready with frame := 4, batch := some 3, turns := [.host] }
    let u : State := { base with frame := 4, batch := some 3, turns := [.host] }
    ((∀ n, s.batch = some n → n < s.frame) ∧ ∃ t, step s = .next t)
      ∧ ((∀ n, u.batch = some n → n < u.frame) ∧ u.turns = .host :: [] ∧ ∃ c a, step u = .fault (.raised c a))
      ∧ ∃ c a, exec .process u = .fault (.raised c a) := by
  refine ⟨⟨?_, _, rfl⟩, ⟨?_, rfl, _, _, rfl⟩, _, _, rfl⟩
  · intro n h; cases h; decide
  · intro n h; cases h; decide

theorem test_witness_StepRunsDecodedCommand :
    (ready.fault = none ∧ ready.batch = none ∧ (hostTo ready [0x00000504#32] 8).turns = .host :: []
      ∧ (hostTo ready [0x00000504#32] 8).hostQueue = { words := [0x00000504#32], frame := 8 } :: []
      ∧ decode [0x00000504#32] = .ok (.tick 5#24, []))
      ∧ ((writerTo ready [0x00000102#32, 1#32]).turns = .writer :: []
        ∧ (writerTo ready [0x00000102#32, 1#32]).writerQueue = [0x00000102#32, 1#32] :: []
        ∧ decode [0x00000102#32, 1#32] = .ok (.setdata [true], [])
        ∧ (Instr.setdata [true]).needsFrame = false) := by
  decide

/-- One header for each way of being illegal, from either agent. -/
theorem test_witness_IllegalHeaderFaults :
    ((0x0#32).toNat % 16 = 0 ∧ 6 ≤ (0x6#32).toNat % 16 ∧ 6 ≤ (0xF#32).toNat % 16 ∧ (0x13#32).toNat / 16 % 16 ≠ 0
      ∧ ((0x103#32).toNat % 16 = 3 ∧ (0x103#32).toNat / 256 ≠ 0)
      ∧ ((0x105#32).toNat % 16 = 5 ∧ (0x105#32).toNat / 256 ≠ 0))
      ∧ (ready.fault = none ∧ ready.batch = none
        ∧ (hostTo ready [0x103#32] 8).hostQueue = { words := [0x103#32], frame := 8 } :: []
        ∧ (hostTo ready [0x103#32] 8).turns = .host :: [])
      ∧ (writerTo ready [0x13#32, 7#32]).writerQueue = [0x13#32, 7#32] :: []
      ∧ (writerTo ready [0x13#32, 7#32]).turns = .writer :: [] := by
  decide

theorem test_witness_FaultIsPreciseAndAbsorbing :
    let f : State := { ready with fault := some .emptyMessage, turns := [.host] }
    (∃ c a, exec (.tick 8#24) ready = .fault (.raised c a))
      ∧ f.fault ≠ none ∧ f.turns.head? ≠ some .reset
      ∧ (∃ t, step (hostTo ready [0x00000003#32] 8) = .next t)
      ∧ (∃ c a, step (hostTo ready [0x00000000#32] 8) = .fault (.raised c a))
      ∧ ({ f with turns := [.reset] } : State).turns = .reset :: [] :=
  ⟨⟨_, _, rfl⟩, by decide, by decide, ⟨_, rfl⟩, ⟨_, _, rfl⟩, rfl⟩

/-- V-TK-11's step and a run that reaches it after one that completes. -/
theorem test_witness_FaultIsObservedWithItsRecord :
    let s := hostTo ready [0x00000804#32] 8
    let u := hostTo (hostTo ready [0x00000003#32] 8) [0x00000804#32] 8
    (∃ a, step s = .fault (.raised (.frameOutOfRange 8 8) a))
      ∧ (∃ a, core.run 2 u = .fault (.raised (.frameOutOfRange 8 8) a)) ∧ ∃ t, step u = .next t :=
  ⟨⟨_, rfl⟩, ⟨_, rfl⟩, _, rfl⟩

/-- V-TK-11: what the fault records is observed with its cause. -/
theorem test_fault_observed :
    observation (step (hostTo ready [0x00000804#32] 8))
      = some { trace := [], responses := [], fault := some .frameOutOfRange, recorded := some (.frameOutOfRange 8 8) } := by
  decide

/-- A header without its payload words, and a `TICK` from the Writer. -/
theorem test_witness_NoCommandIsRefused :
    step (hostTo ready [0x00000801#32] 8) = .refused (.notWhole .host)
      ∧ step (writerTo ready [0x00000004#32]) = .refused .noFrameContext := ⟨rfl, rfl⟩

theorem test_witness_WaitsForACommand :
    ready.fault = none ∧ ready.turns = [] ∧ ready.batch = none ∧ ready.hostQueue = [] ∧ ready.writerQueue = []
      ∧ (ready.ordered [.host]).turns = .host :: [] ∧ (ready.ordered [.writer]).turns = .writer :: [] := by
  decide

/-- From a state in flight, the invariant holds and a step answers a next state. -/
theorem test_witness_StepKeepsInvariant :
    (hostTo (at' .transmitting [true, false] 1#24 none) [0x00000504#32] 8).Inv
      ∧ ∃ t, step (hostTo (at' .transmitting [true, false] 1#24 none) [0x00000504#32] 8) = .next t := by
  refine ⟨?_, _, rfl⟩
  exact ⟨by decide, by decide, by decide, by simp [hostTo, State.hostIssues, State.ordered, at'], by decide, by decide⟩

theorem test_witness_NothingIsTakenBack :
    let s := hostTo ready [0x00000504#32] 8
    (∃ t, step s = .next t) ∧ s.turns.head? ≠ some .reset ∧ s.bound = true ∧ s.pinConfigured = true :=
  ⟨⟨_, rfl⟩, by decide, rfl, rfl⟩

/-- A step that adopts, and one that does not. -/
theorem test_witness_BufferWrittenOnlyByAdoption :
    let s := hostTo (at' .transmitting [true, false] 1#24 (some [false])) [0x00000504#32] 8
    let u := hostTo (at' .transmitting [true, false] 1#24 none) [0x00000504#32] 8
    s.turns.head? ≠ some .reset ∧ (∃ t, step s = .next t ∧ t.buf ≠ s.buf) ∧ ∃ t, step u = .next t ∧ t.buf = u.buf :=
  ⟨by decide, ⟨_, rfl, by decide⟩, _, rfl, rfl⟩

/-- Every command of these meets the hypotheses of the clauses that leave it out. -/
theorem test_witness_EachElementHasItsWriters :
    (∃ t, exec (.tick 0#24) ready = .next t) ∧ (∃ t, exec (.setup 8#24 0#32 1#32 2#32) ready = .next t)
      ∧ (∃ t, exec (.setdata [true]) ready = .next t) ∧ (∃ t, exec .datasent ready = .next t)
      ∧ ∃ t, exec .process ready = .next t :=
  ⟨⟨_, rfl⟩, ⟨_, rfl⟩, ⟨_, rfl⟩, ⟨_, rfl⟩, _, rfl⟩

theorem test_witness_NoTickBeginsInStart :
    let s := hostTo (at' .idle [] 0#24 (some [true])) [0x00000004#32] 1
    s.state ≠ .start ∧ ∃ t, step s = .next t := ⟨by decide, _, rfl⟩

theorem test_witness_PinConfiguredIsUnobserved :
    let d : State := { ready with dirPending := true }
    (d.dirPending = true ∧ ∃ t, exec (.tick 0#24) d = .next t)
      ∧ ((∃ t, step (hostTo ready [0x00000003#32] 1) = .next t)
        ∧ (hostTo ready [0x00000003#32] 1).turns.head? ≠ some .reset
        ∧ (hostTo ready [0x00000003#32] 1).pinConfigured = true)
      ∧ (ready.ordered [.reset]).turns = .reset :: [] ∧ ∃ t, step (ready.ordered [.reset]) = .next t :=
  ⟨⟨rfl, _, rfl⟩, ⟨⟨_, rfl⟩, by decide, rfl⟩, rfl, _, rfl⟩

/-- P4's state after its `SETDATA`, with a `DATASENT` to come. -/
theorem test_witness_NoPinEventBeforeSetup :
    let s := hostTo { base with pending := some [true], capacity := 1#24, trace := [.grow 0#24 1#24] } [0x00000003#32] 1
    (s.bound = false ∧ s.dirPending = false ∧ s.pinConfigured = false ∧ ∀ e ∈ s.trace, e.isGrow = true)
      ∧ ∃ t, step s = .next t := by
  refine ⟨⟨rfl, rfl, rfl, ?_⟩, _, rfl⟩
  decide

/-- The Writer's `SETDATA` beside a Host that issues none. -/
theorem test_witness_OneWriterIsKept :
    let s := hostTo (ready.writerIssues [0x00000102#32, 1#32]) [0x00000004#32] 1
    s.oneWriter = true ∧ ∃ t, step s = .next t := ⟨by decide, _, rfl⟩

/-- The one tick that writes the active level. -/
theorem test_witness_AbandonedIsNeverCommitted :
    let s := at' .stop [true, false] 2#24 none
    s.Inv ∧ s.pins.data ≠ s.pins.latch ∧ ∃ t, exec (.tick 6#24) s = .next t ∧ t.trace = s.trace ++ [.wr 2#32 6 true] :=
  ⟨test_stop_inv, by decide, _, rfl, rfl⟩

/-- On both sides of the top bit, with the largest `MAX_BITS`. -/
theorem test_witness_QuantitiesAreUnsigned :
    let s : State := { ready with params := paramsOf 16777215 (by decide), capacity := 0x7FFFFF#24 }
    let u : State := { s with capacity := 0x800000#24, frame := 2 ^ 23 }
    let e : State := { u with state := .transmitting, cursor := 0x800000#24 }
    (s.fault = none ∧ s.capacity.msb = false ∧ (0x800000#24).msb = true ∧ (0x800000#24).toNat ≤ s.params.maxBits)
      ∧ (u.fault = none ∧ u.capacity.msb = true ∧ (0x7FFFFF#24).msb = false
        ∧ (0x7FFFFF#24).toNat ≤ u.params.maxBits ∧ [true].length < 2 ^ 23 ∧ [true].length ≤ u.params.maxBits)
      ∧ (u.bound = true ∧ (0x800000#24).msb = true ∧ u.frame ≤ 2 ^ 23)
      ∧ e.fault = none ∧ e.bound = true ∧ (0#24).toNat < e.frame ∧ e.pending = none ∧ e.state = .transmitting
      ∧ e.cursor.msb = true ∧ e.buf.length ≤ 2 ^ 23 := by
  decide

theorem test_witness_TransmissionTakesLengthPlusTwoTicks :
    let s := at' .idle [] 0#24 (some [true, false])
    s.Inv ∧ s.fault = none ∧ s.bound = true ∧ s.pending = some [true, false] ∧ 0 < [true, false].length
      ∧ [(1#24, 8), (0#24, 1)].length = [true, false].length
      ∧ inFrames ((0#24, 8) :: ([(1#24, 8), (0#24, 1)] ++ [(7#24, 8)])) = true :=
  ⟨test_pending_inv, by decide⟩

theorem test_witness_DataSentFalseUntilStopTick :
    ready.Inv ∧ ready.fault = none ∧ ready.bound = true ∧ [true].length ≤ ready.params.maxBits ∧ 0 < [true].length
      ∧ (List.replicate 3 (0#24, 1)).length = [true].length + 2 ∧ inFrames (List.replicate 3 (0#24, 1)) = true :=
  ⟨test_ready_inv, by decide⟩

theorem test_witness_CommitShowsTheMessage :
    let s := at' .idle [] 0#24 (some [true, false])
    s.Inv ∧ s.fault = none ∧ s.bound = true ∧ s.pending = some [true, false] ∧ 0 < [true, false].length
      ∧ (List.replicate 4 (0#24, 1)).length = [true, false].length + 2 ∧ inFrames (List.replicate 4 (0#24, 1)) = true
      ∧ s.pins.data ≠ s.pins.latch ∧ Register.powerUp.shifted = some [] :=
  ⟨test_pending_inv, by decide⟩

/-- Four ticks in batches of 3: the second batch is the last, and the first is before it. -/
theorem test_witness_BatchesUntilIdle :
    let s := at' .idle [] 0#24 (some [true, false])
    s.Inv ∧ s.fault = none ∧ s.bound = true ∧ s.pending = some [true, false] ∧ 0 < [true, false].length ∧ 0 < 3
      ∧ 1 < ([true, false].length + 2 + 3 - 1) / 3 :=
  ⟨test_pending_inv, by decide⟩

end Sys2Proof.Tests
end

/-! SUPPORT. What no operation refuses, what each command answers on a running state, the external register under a
transmission's events, and the ticks of a whole transmission; with the statements of 00_scope.md that rest on them. -/

namespace Sys2Proof.Machine

/-! ### Nothing a command does is a refusal (00_scope.md R14) -/

theorem raise_ne_refused (c : Raised) (s : State) (r : Refusal) : raise c s ≠ .refused r := by
  simp [raise]

theorem whenRunning_ne_refused {s : State} {k : Result} {r : Refusal} (h : k ≠ .refused r) :
    whenRunning s k ≠ .refused r := by
  by_cases hf : s.fault = none
  · rwa [whenRunning_of_running hf]
  · simp [whenRunning_of_faulted hf]

theorem tickStep_ne_refused (header : Word) (n N : Nat) (s : State) (r : Refusal) :
    tickStep header n N s ≠ .refused r := by
  rcases tickStep_cases header n N s with ⟨-, e⟩ | ⟨-, -, e⟩ | ⟨-, -, -, e⟩ | ⟨-, -, -, e⟩ <;> simp [e, raise]

theorem batchTick_ne_refused (n : Nat) (s : State) (r : Refusal) : batchTick n s ≠ .refused r := by
  unfold batchTick
  split
  · simp
  · simp
  · next e => exact absurd e (tickStep_ne_refused _ _ _ _ _)

theorem exec_ne_refused (i : Instr) (s : State) (r : Refusal) : exec i s ≠ .refused r := by
  cases i with
  | setup m d c l => exact whenRunning_ne_refused (by split <;> simp [raise])
  | setdata bits => exact whenRunning_ne_refused (by split <;> simp [raise])
  | datasent => exact whenRunning_ne_refused (by simp)
  | tick n => exact whenRunning_ne_refused (tickStep_ne_refused _ _ _ _ _)
  | process =>
    refine whenRunning_ne_refused ?_
    split
    · simp
    · exact batchTick_ne_refused _ _ _

theorem needsFrame_iff (i : Instr) : i.needsFrame = true ↔ (∃ n, i = .tick n) ∨ i = .process := by
  cases i <;> simp [Instr.needsFrame]

/-- The two deliveries the command interface turns away (log 8, 9). -/
theorem runCommand_eq_refused {a : Agent} {ws : List Word} {s : State} {r : Refusal}
    (h : runCommand a ws s = .refused r) :
    (r = .notWhole a ∧ ∀ i, decode ws ≠ .ok (i, []))
    ∨ (a = .writer ∧ r = .noFrameContext ∧ ∃ i, decode ws = .ok (i, []) ∧ i.needsFrame = true) := by
  unfold runCommand at h
  split at h
  · exact absurd h (raise_ne_refused _ _ _)
  · next hd => cases h; exact .inl ⟨rfl, by simp [hd]⟩
  · next hd => cases h; exact .inl ⟨rfl, by simp [hd]⟩
  · next i hd =>
    split at h
    · next hw => cases h; exact .inr ⟨hw.1, rfl, i, hd, hw.2⟩
    · exact absurd h (exec_ne_refused _ _ _)
  · next hd => cases h; exact .inl ⟨rfl, by simp [hd]⟩

/-- A step that is refused had a turn of an agent, whose next command was refused. -/
theorem step_eq_refused {s : State} {r : Refusal} (h : step s = .refused r) :
    (∃ rest c queue, s.hostQueue = c :: queue
        ∧ runCommand .host c.words (({ s with turns := rest }).takeHost c queue) = .refused r)
    ∨ (∃ rest ws queue, s.writerQueue = ws :: queue
        ∧ runCommand .writer ws (({ s with turns := rest }).takeWriter queue) = .refused r) := by
  contrapose! h
  obtain ⟨hhost, hwriter⟩ := h
  unfold step stepOf
  split
  · exact whenRunning_ne_refused (by simp)
  · simp
  · next rest _ =>
    refine whenRunning_ne_refused ?_
    unfold hostTurn
    split
    · exact batchTick_ne_refused _ _ _
    · split
      · simp
      · next c queue hq => exact hhost rest c queue hq
  · next rest _ =>
    refine whenRunning_ne_refused ?_
    unfold writerTurn
    split
    · simp
    · next ws queue hq => exact hwriter rest ws queue hq

/-- Settles O40: a refused step refused the delivery at the front of an agent's queue. -/
theorem noCommandIsRefused : Obligations.NoCommandIsRefused := by
  refine ⟨exec_ne_refused, fun s r h => ?_⟩
  rcases step_eq_refused h with ⟨_, c, _, hq, hr⟩ | ⟨_, ws, _, hq, hr⟩
  · rcases runCommand_eq_refused hr with ⟨hr, hd⟩ | ⟨ha, -, -⟩
    · exact .inl ⟨.host, hr, c.words, hd, .inl ⟨c.frame, by simp [hq]⟩⟩
    · cases ha
  · rcases runCommand_eq_refused hr with ⟨hr, hd⟩ | ⟨-, hr, i, hd, hi⟩
    · exact .inl ⟨.writer, hr, ws, hd, .inr (by simp [hq])⟩
    · exact .inr ⟨hr, ws, i, by simp [hq], hd, (needsFrame_iff i).1 hi⟩

/-- Settles O37, by the step for each kind of turn. -/
theorem stepRunsDecodedCommand : Obligations.StepRunsDecodedCommand := by
  refine ⟨fun s c queue rest i hf hb ht hq hd => ?_, fun s ws queue rest i hf ht hq hd hi => ?_⟩
  · rw [step_of_host hf ht, hostTurn_of_command (by exact hb) (by exact hq), runCommand_of_decode _ hd (by simp)]
    rfl
  · rw [step_of_writer hf ht, writerTurn_of_command (by exact hq), runCommand_of_decode _ hd fun _ => hi]
    rfl

/-! ### What a command answers on a running state -/

theorem exec_setup_completes {s : State} {m : Imm24} (d c l : PinId) (hf : s.fault = none)
    (hm : m.toNat ≤ s.params.maxBits) : exec (.setup m d c l) s = .next (s.bindPins m d c l) := by
  simp [exec, execSetup, whenRunning_of_running hf, (overLimit_eq_false_iff s _).2 hm]

theorem exec_setdata_completes {s : State} {bits : List Bool} (hf : s.fault = none)
    (hl : bits.length ≤ s.params.maxBits) : exec (.setdata bits) s = .next ((s.growFor bits).publish bits) := by
  simp [exec, execSetdata, whenRunning_of_running hf, (overLimit_eq_false_iff s _).2 hl]

theorem exec_tick_of_running {s : State} (n : Imm24) (hf : s.fault = none) :
    exec (.tick n) s = tickStep (Instr.tick n).header n.toNat s.frame s :=
  whenRunning_of_running hf _

/-! ### Quantities with the top bit set (00_scope.md R12) -/

theorem imm24_msb_iff (x : Imm24) : x.msb = true ↔ 2 ^ 23 ≤ x.toNat := by
  rw [BitVec.msb_eq_true_iff_two_mul_ge]
  omega

theorem imm24_msb_eq_false_iff (x : Imm24) : x.msb = false ↔ x.toNat < 2 ^ 23 := by
  rw [BitVec.msb_eq_false_iff_two_mul_lt]
  omega

theorem maxImm_of_lt {a b : Imm24} (h : a.toNat < b.toNat) : maxImm a b = b := if_pos h

theorem maxImm_of_le {a b : Imm24} (h : b.toNat ≤ a.toNat) : maxImm a b = a := if_neg (Nat.not_lt.2 h)

/-- Without growth the message leaves capacity and trace. -/
theorem growFor_of_le {s : State} {bits : List Bool} (h : bits.length ≤ s.capacity.toNat) : s.growFor bits = s := by
  simp [State.growFor, needsGrowth, h]

/-- Settles O58: each comparison is one of naturals, and the top bit says which side of `2^23` a value lies on. -/
theorem quantitiesAreUnsigned : Obligations.QuantitiesAreUnsigned := by
  intro s hf
  simp only [imm24_msb_iff, imm24_msb_eq_false_iff]
  refine ⟨fun m d c l hc hm hmax => ?_, fun m d c l hc hm hmax => ?_, fun bits hc hl hmax => ?_,
    fun n hb hn hN => ?_, fun n hb hn hp hs hc hl => ?_⟩
  · exact ⟨_, exec_setup_completes d c l hf hmax, maxImm_of_lt (hc.trans_le hm)⟩
  · exact ⟨_, exec_setup_completes d c l hf hmax, maxImm_of_le (hm.le.trans hc)⟩
  · refine ⟨_, exec_setdata_completes hf hmax, ?_⟩
    rw [growFor_of_le (hl.le.trans hc)]
    exact ⟨rfl, rfl⟩
  · rw [exec_tick_of_running n hf, tickStep_outOfFrame _ hb (hN.trans hn)]
    exact ⟨_, _, rfl, rfl⟩
  · rw [exec_tick_of_running n hf, tickStep_empty _ hb hn ((emptyAt_iff s).2 ⟨hp, hs, hl.trans hc⟩)]
    exact ⟨_, _, rfl, rfl⟩

/-! ### The external register (00_scope.md R17, log 13) -/

theorem Register.seeAll_append (r : Register) (pins : Pins) (active : Level) (es fs : List Event) :
    r.seeAll pins active (es ++ fs) = (r.seeAll pins active es).seeAll pins active fs :=
  List.foldl_append

theorem Register.seeAll_dueDirEvents (r : Register) (pins : Pins) (active : Level) (s : State) :
    r.seeAll pins active s.dueDirEvents = r := by
  cases h : s.dirPending <;> simp [State.dueDirEvents, State.dirEvents, h, Register.seeAll, Register.see]

section
variable {pins : Pins} (hpins : pins.data ≠ pins.latch) (active : Level) (r : Register)
include hpins

/-- The Start tick's write arms the latch and shifts nothing. -/
theorem Register.see_latch_inactive (n : Nat) :
    r.see pins active (.wr pins.latch n !active) = { r with latch := some !active } := by
  simp [Register.see, Register.write, Register.latchTo, hpins.symm]

/-- A Transmitting tick's two events shift its bit in. -/
theorem Register.seeAll_shift (n : Nat) (v : Bool) :
    r.seeAll pins active [.wr pins.data n v, .clockPulse pins.clock n]
      = { r with data := some v, shifted := r.shifted.map (· ++ [some v]) } := by
  simp [Register.seeAll, Register.see, Register.write, hpins]

/-- The Stop tick's write commits what was shifted in. -/
theorem Register.see_latch_active {r : Register} (n : Nat) (hl : r.latch = some !active) :
    r.see pins active (.wr pins.latch n active)
      = { r with latch := some active, shifted := some [], outputs := r.shifted } := by
  simp [Register.see, Register.write, Register.latchTo, hpins.symm, hl]

/-- The bits of a message enter the stages in order, and the latch line stays. -/
theorem Register.seeAll_shiftEvents (bits : List Bool) {ns : List Nat} (hlen : ns.length = bits.length)
    {r : Register} {old : List (Option Level)} (hs : r.shifted = some old) :
    (r.seeAll pins active (shiftEvents pins bits ns)).shifted = some (old ++ bits.map some)
      ∧ (r.seeAll pins active (shiftEvents pins bits ns)).latch = r.latch := by
  induction bits generalizing ns r old with
  | nil => simp [shiftEvents, Register.seeAll, hs]
  | cons b bits ih =>
    obtain _ | ⟨n, ns⟩ := ns
    · simp at hlen
    have hsplit : shiftEvents pins (b :: bits) (n :: ns)
        = [.wr pins.data n b, .clockPulse pins.clock n] ++ shiftEvents pins bits ns := rfl
    rw [hsplit, Register.seeAll_append, Register.seeAll_shift hpins]
    have := ih (by simpa using hlen)
      (r := { r with data := some b, shifted := r.shifted.map (· ++ [some b]) }) (old := old ++ [some b])
      (by simp [hs])
    simpa using this

/-- A whole transmission leaves the message on the outputs, after what the stages held. -/
theorem Register.seeAll_transmissionEvents (bits : List Bool) {ns : List Nat} (hlen : ns.length = bits.length)
    (n₀ nₑ : Nat) {r : Register} {old : List (Option Level)} (hs : r.shifted = some old) :
    (r.seeAll pins active (transmissionEvents pins active bits n₀ ns nₑ)).outputs = some (old ++ bits.map some)
      ∧ (r.seeAll pins active (transmissionEvents pins active bits n₀ ns nₑ)).shifted = some [] := by
  obtain ⟨hshifted, hlatch⟩ := Register.seeAll_shiftEvents hpins active bits hlen
    (r := { r with latch := some !active }) hs
  have hsplit : r.seeAll pins active (transmissionEvents pins active bits n₀ ns nₑ)
      = (({ r with latch := some !active } : Register).seeAll pins active (shiftEvents pins bits ns)).see pins active
          (.wr pins.latch nₑ active) := by
    rw [← Register.see_latch_inactive hpins active r n₀]
    simp [transmissionEvents, Register.seeAll]
  rw [hsplit, Register.see_latch_active hpins active nₑ hlatch]
  exact ⟨hshifted, rfl⟩

end

/-! ### The ticks of a transmission (42_process.md R132 to R134) -/

/-- `s` is sending `bits` and has shifted out the first `k` of them. -/
structure State.Sending (pins : Pins) (params : Params) (bits : List Bool) (k : Nat) (s : State) : Prop where
  fits : bits.length ≤ params.maxBits
  running : s.fault = none
  bound : s.bound = true
  pins : s.pins = pins
  params : s.params = params
  dirPending : s.dirPending = false
  pending : s.pending = none
  buf : s.buf = bits
  cursor : s.cursor.toNat = k
  state : s.state = if k = bits.length then .stop else .transmitting

theorem configureDirection_of_notPending {s : State} (h : s.dirPending = false) : s.configureDirection = s := by
  simp [State.configureDirection, h]

@[simp] theorem configureDirection_dirPending (s : State) : s.configureDirection.dirPending = false := by
  simp [configureDirection_eq]

@[simp] theorem configureDirection_trace (s : State) : s.configureDirection.trace = s.trace ++ s.dueDirEvents := by
  simp [configureDirection_eq]

theorem State.Inv.pending_fits {s : State} {bits : List Bool} (h : s.Inv) (hp : s.pending = some bits) :
    bits.length ≤ s.params.maxBits :=
  (h.pending_le bits hp).trans h.capacity_le

/-- The tick that adopts a pending message of at least one bit begins to send it (R122, R125). -/
theorem tickStep_adopts {s : State} {bits : List Bool} {n N : Nat} (header : Word) (hf : s.fault = none)
    (hb : s.bound = true) (hp : s.pending = some bits) (hfits : bits.length ≤ s.params.maxBits)
    (hpos : 0 < bits.length) (hn : n < N) :
    ∃ t, tickStep header n N s = .next t ∧ t.Sending s.pins s.params bits 0
      ∧ t.trace = s.trace ++ (s.dueDirEvents ++ [.wr s.pins.latch n !s.params.latchActive]) := by
  refine ⟨_, tickStep_completes header hb hn (by simp [State.emptyAt, hp]), ?_, ?_⟩
  · rw [tick_of_pending n hp]
    constructor
    case fits => exact hfits
    case state => exact (if_neg hpos.ne).symm
    all_goals simp [hf, hb]
  · simp [tick_of_pending n hp, State.inactiveLevel]

section
variable {s : State} {pins : Pins} {params : Params} {bits : List Bool} {k : Nat}

theorem State.Sending.withFrame (h : s.Sending pins params bits k) (N : Nat) :
    ({ s with frame := N } : State).Sending pins params bits k :=
  ⟨h.fits, h.running, h.bound, h.pins, h.params, h.dirPending, h.pending, h.buf, h.cursor, h.state⟩

/-- A tick in mid-message shifts the next bit out (R127). -/
theorem State.Sending.tickStep_shifts (h : s.Sending pins params bits k) (header : Word) {n N : Nat} (hn : n < N)
    (hk : k < bits.length) :
    ∃ t, tickStep header n N s = .next t ∧ t.Sending pins params bits (k + 1)
      ∧ t.trace = s.trace ++ [.wr pins.data n bits[k], .clockPulse pins.clock n] := by
  have hstate : s.state = .transmitting := by rw [h.state, if_neg hk.ne]
  have hbit : s.buf[s.cursor.toNat]? = some bits[k] := by rw [h.buf, h.cursor, List.getElem?_eq_getElem hk]
  have hcursor : (s.cursor + 1#24).toNat = k + 1 := by
    have := h.fits.trans_lt (Params.maxBits_lt params)
    have := h.cursor
    bv_omega
  have htick : tickStep header n N s = .next (s.shiftBit n bits[k]) := by
    rw [tickStep_completes header h.bound hn (by simp [State.emptyAt, h.buf, h.cursor, hk]),
      tick_of_transmitting n h.pending hstate hbit, configureDirection_of_notPending h.dirPending]
  refine ⟨_, htick, ?_, by simp [h.pins]⟩
  constructor
  case fits => exact h.fits
  case cursor => exact hcursor
  all_goals simp [h.running, h.bound, h.pins, h.params, h.dirPending, h.pending, h.buf, h.cursor]

/-- The tick after the last bit commits the message and leaves the block idle (R128). -/
theorem State.Sending.tickStep_stops (h : s.Sending pins params bits bits.length) (header : Word) {n N : Nat}
    (hn : n < N) :
    ∃ t, tickStep header n N s = .next t ∧ t.state = .idle ∧ t.pending = none ∧ t.buf = bits
      ∧ t.cursor.toNat = bits.length ∧ t.trace = s.trace ++ [.wr pins.latch n params.latchActive] := by
  have hstate : s.state = .stop := by rw [h.state, if_pos rfl]
  have htick : tickStep header n N s = .next (s.stopAction n) := by
    rw [tickStep_completes header h.bound hn (by simp [State.emptyAt, hstate]),
      tick_of_stop n h.pending hstate, configureDirection_of_notPending h.dirPending]
  refine ⟨_, htick, ?_⟩
  simp [h.pending, h.buf, h.cursor, h.pins, h.params, State.activeLevel]

theorem runTicks_of_tickStep {n : Imm24} {N : Nat} {t : State} (rest : List (Imm24 × Nat)) (hf : s.fault = none)
    (h : tickStep (Instr.tick n).header n.toNat N { s with frame := N } = .next t) :
    runTicks ((n, N) :: rest) s = runTicks rest t :=
  runTicks_of_next rest ((exec_tick_of_running (s := { s with frame := N }) n hf).trans h)

theorem inFrames_cons {n : Imm24} {N : Nat} {ticks : List (Imm24 × Nat)} :
    inFrames ((n, N) :: ticks) = true ↔ n.toNat < N ∧ inFrames ticks = true := by
  simp [inFrames]

theorem inFrames_append {as bs : List (Imm24 × Nat)} :
    inFrames (as ++ bs) = true ↔ inFrames as = true ∧ inFrames bs = true := by
  simp [inFrames]

/-- Ticks in mid-message shift one bit each (R133). -/
theorem State.Sending.runTicks_shifts (h : s.Sending pins params bits k) (ticks : List (Imm24 × Nat))
    (hlen : k + ticks.length ≤ bits.length) (hin : inFrames ticks = true) :
    ∃ t, runTicks ticks s = .next t ∧ t.Sending pins params bits (k + ticks.length)
      ∧ t.trace = s.trace ++ shiftEvents pins (bits.drop k) (ticks.map fun x => x.1.toNat) := by
  induction ticks generalizing s k with
  | nil => exact ⟨s, rfl, h, by cases bits.drop k <;> simp [shiftEvents]⟩
  | cons tick ticks ih =>
    obtain ⟨n, N⟩ := tick
    obtain ⟨hn, hin⟩ := inFrames_cons.1 hin
    rw [List.length_cons] at hlen
    have hk : k < bits.length := by omega
    obtain ⟨u, hu, hsend, htrace⟩ := (h.withFrame N).tickStep_shifts (Instr.tick n).header hn hk
    obtain ⟨t, ht, hsend', htrace'⟩ := ih hsend (by omega) hin
    refine ⟨t, ?_, ?_, ?_⟩
    · rwa [runTicks_of_tickStep ticks h.running hu]
    · rwa [List.length_cons, Nat.add_comm ticks.length, ← Nat.add_assoc]
    · rw [htrace', htrace, List.drop_eq_getElem_cons hk]
      simp only [List.map_cons, shiftEvents, List.append_assoc, List.cons_append, List.nil_append]

end

/-- The `L + 2` ticks of a pending message and the events they emit. -/
theorem runTicks_transmission {s : State} {bits : List Bool} {first last : Imm24 × Nat} {mid : List (Imm24 × Nat)}
    (hinv : s.Inv) (hf : s.fault = none) (hb : s.bound = true) (hp : s.pending = some bits) (hpos : 0 < bits.length)
    (hlen : mid.length = bits.length) (hin : inFrames (first :: (mid ++ [last])) = true) :
    ∃ t, runTicks (first :: (mid ++ [last])) s = .next t
      ∧ t.state = .idle ∧ t.pending = none ∧ t.buf = bits ∧ t.cursor.toNat = bits.length
      ∧ t.trace = s.trace ++ (s.dueDirEvents
          ++ transmissionEvents s.pins s.params.latchActive bits first.1.toNat (mid.map fun x => x.1.toNat)
              last.1.toNat) := by
  obtain ⟨n₀, N₀⟩ := first
  obtain ⟨nₑ, Nₑ⟩ := last
  obtain ⟨hin₀, hin⟩ := inFrames_cons.1 hin
  obtain ⟨hmid, hinₑ⟩ := inFrames_append.1 hin
  obtain ⟨u, hu, hsend, htrace⟩ :=
    tickStep_adopts (s := { s with frame := N₀ }) (Instr.tick n₀).header hf hb hp (hinv.pending_fits hp) hpos hin₀
  obtain ⟨v, hv, hsend', htrace'⟩ := hsend.runTicks_shifts mid (by omega) hmid
  rw [Nat.zero_add, hlen] at hsend'
  obtain ⟨t, ht, hstate, hpend, hbuf, hcursor, htrace''⟩ :=
    (hsend'.withFrame Nₑ).tickStep_stops (Instr.tick nₑ).header (inFrames_cons.1 hinₑ).1
  refine ⟨t, ?_, hstate, hpend, hbuf, hcursor, ?_⟩
  · rw [runTicks_of_tickStep _ hf hu, runTicks_append _ _ hv,
      runTicks_of_tickStep _ hsend'.running ht, runTicks_nil]
  · rw [htrace'', htrace', htrace]
    simp [transmissionEvents, State.dueDirEvents, State.dirEvents]

theorem exists_first_mid_last {α : Type} {xs : List α} {k : Nat} (h : xs.length = k + 2) :
    ∃ first mid last, xs = first :: (mid ++ [last]) ∧ mid.length = k := by
  obtain _ | ⟨first, rest⟩ := xs
  · simp at h
  obtain rfl | ⟨mid, last, rfl⟩ := rest.eq_nil_or_concat'
  · simp at h
  exact ⟨first, mid, last, rfl, by simpa using h⟩

/-- Settles O55: the register sees the direction requests, which it ignores, and then the events of the
transmission. -/
theorem commitShowsTheMessage : Obligations.CommitShowsTheMessage := by
  intro s bits ticks hinv hf hb hp hpos hlen hin hpins
  obtain ⟨first, mid, last, rfl, hmid⟩ := exists_first_mid_last hlen
  obtain ⟨t, ht, -, -, -, -, htrace⟩ := runTicks_transmission hinv hf hb hp hpos hmid hin
  refine ⟨t, _, ht, htrace, fun r old hs => ?_⟩
  rw [Register.seeAll_append, Register.seeAll_dueDirEvents]
  exact Register.seeAll_transmissionEvents hpins _ bits (by simpa using hmid) _ _ hs

end Sys2Proof.Machine

/-! SUPPORT. What one command and one step do to the block, whatever the command interface holds; the invariant of
10_state.md R35 and the other statements about single state elements rest on it. -/

namespace Sys2Proof.Machine

/-! ### What a step does to the block -/

/-- The block and its outputs are the same; only fields of the command interface (log 5, 6) may differ. -/
structure SameBlock (s t : State) : Prop where
  params : t.params = s.params
  pins : t.pins = s.pins
  bound : t.bound = s.bound
  pinConfigured : t.pinConfigured = s.pinConfigured
  dirPending : t.dirPending = s.dirPending
  capacity : t.capacity = s.capacity
  buf : t.buf = s.buf
  pending : t.pending = s.pending
  state : t.state = s.state
  cursor : t.cursor = s.cursor
  fault : t.fault = s.fault
  trace : t.trace = s.trace
  responses : t.responses = s.responses

theorem SameBlock.refl (s : State) : SameBlock s s := by constructor <;> rfl

theorem sameBlock_afterTick (s : State) (n : Nat) : SameBlock s (s.afterTick n) := by constructor <;> rfl

theorem sameBlock_takeHost (s : State) (rest : List Turn) (c : HostCommand) (queue : List HostCommand) :
    SameBlock s (({ s with turns := rest }).takeHost c queue) := by constructor <;> rfl

theorem sameBlock_takeWriter (s : State) (rest : List Turn) (queue : List (List Word)) :
    SameBlock s (({ s with turns := rest }).takeWriter queue) := by constructor <;> rfl

theorem sameBlock_applyReset (s : State) (rest : List Turn) :
    SameBlock (State.resetWith s.params) ({ s with turns := rest }).applyReset := by constructor <;> rfl

/-- What a command that completes does to the block: a `PROCESS` by one of its ticks, or by none where its frame
context is empty (42_process.md R120). -/
inductive Effect : Instr → State → State → Prop where
  | setup {s : State} {m : Imm24} (d c l : PinId) (hm : m.toNat ≤ s.params.maxBits) :
      Effect (.setup m d c l) s (s.bindPins m d c l)
  | setdata {s : State} {bits : List Bool} (hl : bits.length ≤ s.params.maxBits) :
      Effect (.setdata bits) s ((s.growFor bits).publish bits)
  | datasent (s : State) : Effect .datasent s (s.respond s.dataSentWord)
  | noTick (s : State) : Effect .process s s
  | tick {i : Instr} {s : State} (n : Nat) (hi : i.needsFrame = true) (he : s.emptyAt = false) :
      Effect i s (s.configureDirection.adopt.protocolAction n)

theorem tickStep_effect {i : Instr} {header : Word} {n N : Nat} {s t : State} (hi : i.needsFrame = true)
    (h : tickStep header n N s = .next t) : Effect i s t := by
  obtain ⟨-, -, he, rfl⟩ := tickStep_eq_next h
  exact .tick n hi he

theorem batchTick_effect {n : Nat} {s t : State} (h : batchTick n s = .next t) :
    ∃ u, Effect .process s u ∧ SameBlock u t := by
  obtain ⟨u, hu, rfl⟩ := batchTick_eq_next h
  exact ⟨u, tickStep_effect rfl hu, sameBlock_afterTick u n⟩

theorem exec_effect {i : Instr} {s t : State} (h : exec i s = .next t) :
    ∃ u, Effect i s u ∧ SameBlock u t := by
  cases i with
  | setup m d c l =>
    obtain ⟨-, hm, rfl⟩ := execSetup_eq_next h
    exact ⟨_, .setup d c l hm, .refl _⟩
  | setdata bits =>
    obtain ⟨-, hl, rfl⟩ := execSetdata_eq_next h
    exact ⟨_, .setdata hl, .refl _⟩
  | datasent =>
    obtain ⟨-, rfl⟩ := execDatasent_eq_next h
    exact ⟨_, .datasent s, .refl _⟩
  | tick n =>
    obtain ⟨-, -, -, he, rfl⟩ := execTick_eq_next h
    exact ⟨_, .tick n.toNat rfl he, .refl _⟩
  | process =>
    obtain ⟨-, ⟨-, rfl⟩ | ⟨-, u, hu, rfl⟩⟩ := execProcess_eq_next h
    · exact ⟨t, .noTick t, .refl t⟩
    · exact ⟨u, tickStep_effect rfl hu, sameBlock_afterTick u 0⟩

/-- Every step but a reset leaves the block, or does to it what one command does. -/
theorem step_effect {s t : State} (h : step s = .next t) :
    (∃ rest, s.turns = .reset :: rest ∧ t = ({ s with turns := rest }).applyReset)
    ∨ SameBlock s t
    ∨ ∃ i r u, SameBlock s r ∧ Effect i r u ∧ SameBlock u t := by
  rcases step_eq_next h with hreset | ⟨-, ⟨-, rfl⟩ | ⟨rest, -, rfl⟩ | ⟨rest, n, -, -, hb⟩
    | ⟨rest, c, queue, i, -, -, -, -, he⟩ | ⟨rest, ws, queue, i, -, -, -, -, he⟩⟩
  · exact .inl hreset
  · exact .inr (.inl (.refl t))
  · exact .inr (.inl (by constructor <;> rfl))
  · obtain ⟨u, hu, ht⟩ := batchTick_effect hb
    exact .inr (.inr ⟨_, _, u, by constructor <;> rfl, hu, ht⟩)
  · obtain ⟨u, hu, ht⟩ := exec_effect he
    exact .inr (.inr ⟨i, _, u, sameBlock_takeHost s rest c queue, hu, ht⟩)
  · obtain ⟨u, hu, ht⟩ := exec_effect he
    exact .inr (.inr ⟨i, _, u, sameBlock_takeWriter s rest queue, hu, ht⟩)

/-- A transitive relation that reads the block alone and holds across every command's effect holds across every step
but a reset. -/
theorem rel_of_step {R : State → State → Prop} (same : ∀ {s t}, SameBlock s t → R s t)
    (trans : ∀ {s t u}, R s t → R t u → R s u) (effect : ∀ {i s t}, Effect i s t → R s t)
    {s t : State} (h : step s = .next t) (hr : s.turns.head? ≠ some .reset) : R s t := by
  rcases step_effect h with ⟨rest, hturn, -⟩ | hsame | ⟨i, r, u, hsr, hru, hut⟩
  · simp [hturn] at hr
  · exact same hsame
  · exact trans (same hsr) (trans (effect hru) (same hut))

/-! ### The invariant (10_state.md R35) -/

theorem inv_resetWith (p : Params) : (State.resetWith p).Inv where
  cursor_le := Nat.le_refl 0
  buf_le := Nat.le_refl 0
  capacity_le := Nat.zero_le _
  pending_le := nofun
  transmitting := nofun
  stop := nofun

/-- A capacity that is raised within `MAX_BITS` keeps the invariant. -/
theorem State.Inv.of_capacity_le {s t : State} (h : s.Inv) (hsame : SameTransmission s t)
    (hparams : t.params = s.params) (hle : s.capacity.toNat ≤ t.capacity.toNat)
    (hmax : t.capacity.toNat ≤ s.params.maxBits) : t.Inv where
  cursor_le := by simpa only [hsame.cursor, hsame.buf] using h.cursor_le
  buf_le := by simpa only [hsame.buf] using h.buf_le.trans hle
  capacity_le := by simpa only [hparams] using hmax
  pending_le bits hp := (h.pending_le bits (hsame.pending ▸ hp)).trans hle
  transmitting := by simpa only [hsame.state, hsame.cursor, hsame.buf] using h.transmitting
  stop := by simpa only [hsame.state, hsame.cursor, hsame.buf] using h.stop

theorem SameBlock.inv {s t : State} (h : SameBlock s t) (hs : s.Inv) : t.Inv :=
  hs.of_capacity_le ⟨h.buf, h.pending, h.state, h.cursor⟩ h.params (by rw [h.capacity])
    (by simpa only [h.capacity] using hs.capacity_le)

/-- `SETDATA` reserves room for its message and never less than there was (R100). -/
theorem growFor_capacity_toNat {s : State} {bits : List Bool} (hl : bits.length ≤ s.params.maxBits) :
    (s.growFor bits).capacity.toNat = max s.capacity.toNat bits.length := by
  simp only [growFor_eq]
  split
  · rw [messageLength_toNat hl]; omega
  · omega

theorem trace_isPrefix_growFor (s : State) (bits : List Bool) : s.trace <+: (s.growFor bits).trace := by
  simp [growFor_eq]

section
variable {s : State} (h : s.Inv)
include h

theorem State.Inv.bindPins {m : Imm24} (d c l : PinId) (hm : m.toNat ≤ s.params.maxBits) :
    (s.bindPins m d c l).Inv := by
  refine h.of_capacity_le (by constructor <;> rfl) rfl ?_ ?_ <;> rw [State.bindPins_capacity, maxImm_toNat]
  · exact Nat.le_max_left _ _
  · exact Nat.max_le.2 ⟨h.capacity_le, hm⟩

theorem State.Inv.growFor {bits : List Bool} (hl : bits.length ≤ s.params.maxBits) : (s.growFor bits).Inv := by
  refine h.of_capacity_le (by constructor <;> simp) (by simp) ?_ ?_ <;> rw [growFor_capacity_toNat hl]
  · exact Nat.le_max_left _ _
  · exact Nat.max_le.2 ⟨h.capacity_le, hl⟩

theorem State.Inv.publish {bits : List Bool} (hl : bits.length ≤ s.capacity.toNat) : (s.publish bits).Inv where
  cursor_le := h.cursor_le
  buf_le := h.buf_le
  capacity_le := h.capacity_le
  pending_le := by rintro _ ⟨⟩; exact hl
  transmitting := h.transmitting
  stop := h.stop

theorem State.Inv.configureDirection : s.configureDirection.Inv :=
  h.of_capacity_le (by constructor <;> simp) (by simp) (by simp) (by simpa using h.capacity_le)

/-- Adoption: the pending message fits the capacity, and none of it has been shifted out (R122). -/
theorem State.Inv.adopt : s.adopt.Inv := by
  cases hp : s.pending with
  | none => rwa [adopt_of_none hp]
  | some bits =>
    rw [adopt_of_some hp]
    exact ⟨Nat.zero_le _, h.pending_le bits hp, h.capacity_le, nofun, nofun, nofun⟩

theorem State.Inv.startAction (n : Nat) : (s.startAction n).Inv where
  cursor_le := Nat.zero_le _
  buf_le := h.buf_le
  capacity_le := h.capacity_le
  pending_le := h.pending_le
  transmitting _ := (Nat.eq_zero_or_pos s.buf.length).symm
  stop := nofun

/-- Below the end of the buffer the cursor cannot wrap (R130). -/
theorem State.Inv.cursor_succ_toNat (hlt : s.cursor.toNat < s.buf.length) :
    (s.cursor + 1#24).toNat = s.cursor.toNat + 1 := by
  have hbuf := h.buf_le
  have hcap := s.capacity.isLt
  bv_omega

theorem State.Inv.shiftBit (n : Nat) (v : Bool) (hlt : s.cursor.toNat < s.buf.length) : (s.shiftBit n v).Inv := by
  have hcursor : (s.shiftBit n v).cursor.toNat = s.cursor.toNat + 1 := h.cursor_succ_toNat hlt
  exact {
    cursor_le := hcursor.trans_le hlt
    buf_le := h.buf_le
    capacity_le := h.capacity_le
    pending_le := h.pending_le
    transmitting := by rw [hcursor]; simp; omega
    stop := by rw [hcursor]; simp }

theorem State.Inv.transmitAction (n : Nat) : (s.transmitAction n).Inv := by
  unfold State.transmitAction
  split
  · next hv => exact h.shiftBit n _ (List.getElem?_eq_some_iff.1 hv).1
  · exact h

theorem State.Inv.stopAction (n : Nat) : (s.stopAction n).Inv where
  cursor_le := h.cursor_le
  buf_le := h.buf_le
  capacity_le := h.capacity_le
  pending_le := h.pending_le
  transmitting := nofun
  stop := nofun

theorem State.Inv.protocolAction (n : Nat) : (s.protocolAction n).Inv := by
  unfold State.protocolAction
  split
  · exact h
  · exact h.startAction n
  · exact h.transmitAction n
  · exact h.stopAction n

theorem Effect.inv {i : Instr} {t : State} (he : Effect i s t) : t.Inv := by
  cases he with
  | setup d c l hm => exact h.bindPins d c l hm
  | setdata hl => exact (h.growFor hl).publish ((Nat.le_max_right _ _).trans_eq (growFor_capacity_toNat hl).symm)
  | datasent => exact h.of_capacity_le (by constructor <;> rfl) rfl le_rfl h.capacity_le
  | noTick => exact h
  | tick n => exact h.configureDirection.adopt.protocolAction n

end

/-- Settles O43. -/
theorem invariantAtReset : Obligations.InvariantAtReset := ⟨inv_resetWith _, inv_resetWith⟩

/-- Settles O42: a reset brings the reset state's invariant, and every other step is made of effects that keep it. -/
theorem stepKeepsInvariant : Obligations.StepKeepsInvariant := by
  intro s t hs h
  rcases step_effect h with ⟨rest, -, rfl⟩ | hsame | ⟨i, r, u, hsr, hru, hut⟩
  · exact (sameBlock_applyReset s rest).inv (inv_resetWith s.params)
  · exact hsame.inv hs
  · exact hut.inv (hru.inv (hsr.inv hs))

/-! ### What is never taken back (R24, R25, R27, 00_scope.md R15) -/

/-- `t` keeps the flags that are set in `s`, and adds to its capacity and its outputs. -/
structure OnlyAdds (s t : State) : Prop where
  params : t.params = s.params
  bound : s.bound = true → t.bound = true
  pinConfigured : s.pinConfigured = true → t.pinConfigured = true
  capacity : s.capacity.toNat ≤ t.capacity.toNat
  trace : s.trace <+: t.trace
  responses : s.responses <+: t.responses

theorem SameBlock.onlyAdds {s t : State} (h : SameBlock s t) : OnlyAdds s t := by
  constructor <;> simp [h.params, h.bound, h.pinConfigured, h.capacity, h.trace, h.responses]

theorem OnlyAdds.trans {s t u : State} (h : OnlyAdds s t) (h' : OnlyAdds t u) : OnlyAdds s u where
  params := h'.params.trans h.params
  bound := h'.bound ∘ h.bound
  pinConfigured := h'.pinConfigured ∘ h.pinConfigured
  capacity := h.capacity.trans h'.capacity
  trace := h.trace.trans h'.trace
  responses := h.responses.trans h'.responses

@[simp] theorem configureDirection_pinConfigured (s : State) :
    s.configureDirection.pinConfigured = (s.pinConfigured || s.dirPending) := by
  rw [configureDirection_eq]

theorem trace_isPrefix_protocolAction (s : State) (n : Nat) : s.trace <+: (s.protocolAction n).trace := by
  unfold State.protocolAction State.transmitAction
  split
  · exact ⟨[], List.append_nil _⟩
  · exact ⟨_, rfl⟩
  · split
    · exact ⟨_, rfl⟩
    · exact ⟨[], List.append_nil _⟩
  · exact ⟨_, rfl⟩

theorem onlyAdds_tick (s : State) (n : Nat) : OnlyAdds s (s.configureDirection.adopt.protocolAction n) := by
  have htrace : s.trace <+: s.configureDirection.adopt.trace := by simp
  constructor
  case trace => exact htrace.trans (trace_isPrefix_protocolAction _ n)
  all_goals simp +contextual

theorem Effect.onlyAdds {i : Instr} {s t : State} (he : Effect i s t) : OnlyAdds s t := by
  cases he with
  | setup d c l => constructor <;> simp [maxImm_toNat]
  | setdata hl => constructor <;> simp [growFor_capacity_toNat hl, trace_isPrefix_growFor]
  | datasent => constructor <;> simp
  | noTick => exact (SameBlock.refl s).onlyAdds
  | tick n => exact onlyAdds_tick s n

theorem step_onlyAdds {s t : State} (h : step s = .next t) (hr : s.turns.head? ≠ some .reset) : OnlyAdds s t :=
  rel_of_step SameBlock.onlyAdds OnlyAdds.trans Effect.onlyAdds h hr

/-- Settles O44: a reset keeps the parameters, and every other step only adds. -/
theorem nothingIsTakenBack : Obligations.NothingIsTakenBack := by
  intro s t h
  by_cases hr : s.turns.head? = some .reset
  · obtain ⟨rest, hturn⟩ := List.head?_eq_some_iff.1 hr
    cases (step_of_reset hturn).symm.trans h
    exact ⟨rfl, fun hr' => absurd hr hr'⟩
  · obtain ⟨hparams, hbound, hpins, hcap, ⟨es, htrace⟩, rs, hresp⟩ := step_onlyAdds h hr
    exact ⟨hparams, fun _ => ⟨hbound, hpins, hcap, ⟨es, htrace.symm⟩, rs, hresp.symm⟩⟩

/-! ### Who writes what (R22) -/

/-- Settles O46, by the effect of each command. -/
theorem eachElementHasItsWriters : Obligations.EachElementHasItsWriters := by
  intro i s t h
  obtain ⟨u, hu, ht⟩ := exec_effect h
  simp only [ht.pins, ht.bound, ht.dirPending, ht.fault, ht.state, ht.cursor, ht.buf, ht.pinConfigured, ht.pending,
    ht.capacity, ht.responses]
  cases hu with
  | setup d c l => simp
  | setdata => simp
  | datasent => simp
  | noTick => simp
  | tick n hi =>
    obtain ⟨n, rfl⟩ | rfl := (needsFrame_iff i).1 hi
    · simp
    · simp

/-! ### What no tick reads (R25, R27) -/

/-- `s` with another capacity and another `pinConfigured`. -/
def State.withUnread (s : State) (k : Imm24) (v : Bool) : State := { s with capacity := k, pinConfigured := v }

theorem configureDirection_withUnread (s : State) (k : Imm24) (v : Bool) :
    (s.withUnread k v).configureDirection = s.configureDirection.withUnread k (v || s.dirPending) := by
  simp only [configureDirection_eq]
  rfl

theorem adopt_withUnread (s : State) (k : Imm24) (v : Bool) : (s.withUnread k v).adopt = s.adopt.withUnread k v := by
  unfold State.adopt
  cases hp : s.pending <;> simp [State.withUnread, hp, State.bufWrite]

theorem protocolAction_withUnread (s : State) (n : Nat) (k : Imm24) (v : Bool) :
    (s.withUnread k v).protocolAction n = (s.protocolAction n).withUnread k v := by
  unfold State.protocolAction
  cases hs : s.state with
  | idle => simp [State.withUnread, hs]
  | start => simp [State.withUnread, hs, State.startAction, State.emit, State.inactiveLevel]
  | transmitting =>
    cases hv : s.buf[s.cursor.toNat]? <;>
      simp [State.withUnread, hs, State.transmitAction, State.bufRead, hv, State.shiftBit, State.emit]
  | stop => simp [State.withUnread, hs, State.stopAction, State.emit, State.activeLevel]

/-- A tick carries both elements along; only direction configuration writes one of them. -/
theorem tick_withUnread (s : State) (n : Nat) (k : Imm24) (v : Bool) :
    (s.withUnread k v).configureDirection.adopt.protocolAction n
      = (s.configureDirection.adopt.protocolAction n).withUnread k (v || s.dirPending) := by
  rw [configureDirection_withUnread, adopt_withUnread, protocolAction_withUnread]

/-- The change `g` of the state passes through a tick and through the fault a tick may raise. -/
structure PassesTicks (g : State → State) : Prop where
  fault : ∀ s, (g s).fault = s.fault
  bound : ∀ s, (g s).bound = s.bound
  frame : ∀ s, (g s).frame = s.frame
  emptyAt : ∀ s, (g s).emptyAt = s.emptyAt
  setFault : ∀ s c, (g s).setFault c = g (s.setFault c)
  afterTick : ∀ s n, (g s).afterTick n = g (s.afterTick n)
  tick : ∀ s n, (g s).configureDirection.adopt.protocolAction n = g (s.configureDirection.adopt.protocolAction n)

theorem mapState_mapState (f g : State → State) (r : Result) : mapState f (mapState g r) = mapState (f ∘ g) r := by
  match r with
  | .next _ => rfl
  | .fault (.raised _ _) => rfl
  | .fault (.stuck _) => rfl
  | .refused _ => rfl

theorem whenRunning_mapState {g : State → State} {s : State} (hf : (g s).fault = s.fault) (r : Result) :
    whenRunning (g s) (mapState g r) = mapState g (whenRunning s r) := by
  unfold whenRunning
  rw [hf]
  cases s.fault <;> rfl

section
variable {g : State → State} (h : PassesTicks g)
include h

theorem PassesTicks.raise (c : Raised) (s : State) : raise c (g s) = mapState g (raise c s) := by
  rw [raise_eq, raise_eq, h.setFault]
  rfl

theorem PassesTicks.tickStep (header : Word) (n N : Nat) (s : State) :
    tickStep header n N (g s) = mapState g (tickStep header n N s) := by
  unfold Machine.tickStep
  rw [h.bound, h.emptyAt, h.tick]
  simp only [apply_ite (mapState g), h.raise]
  rfl

theorem PassesTicks.batchTick (n : Nat) (s : State) : batchTick n (g s) = mapState g (batchTick n s) := by
  unfold Machine.batchTick
  rw [h.frame, h.tickStep]
  match Machine.tickStep Instr.process.header n s.frame s with
  | .next t => exact congrArg Host.Outcome.next (h.afterTick t n)
  | .fault (.raised _ _) => rfl
  | .fault (.stuck _) => rfl
  | .refused _ => rfl

theorem PassesTicks.exec_tick (n : Imm24) (s : State) : exec (.tick n) (g s) = mapState g (exec (.tick n) s) := by
  show whenRunning (g s) (Machine.tickStep _ _ (g s).frame (g s)) = _
  rw [h.frame, h.tickStep, whenRunning_mapState (h.fault s)]
  rfl

theorem PassesTicks.exec_process (s : State) : exec .process (g s) = mapState g (exec .process s) := by
  show whenRunning (g s) (if (g s).frame = 0 then .next (g s) else Machine.batchTick 0 (g s)) = _
  have hbody : (if (g s).frame = 0 then .next (g s) else Machine.batchTick 0 (g s))
      = mapState g (if s.frame = 0 then .next s else Machine.batchTick 0 s) := by
    rw [h.frame, h.batchTick, apply_ite (mapState g)]
    rfl
  rw [hbody, whenRunning_mapState (h.fault s)]
  rfl

end

theorem passesTicks_capacity (k : Imm24) : PassesTicks fun t => { t with capacity := k } := by
  constructor
  case tick =>
    intro s n
    have hpin : (s.configureDirection.adopt.protocolAction n).pinConfigured = (s.pinConfigured || s.dirPending) := by
      simp
    exact (tick_withUnread s n k s.pinConfigured).trans (by rw [← hpin]; rfl)
  all_goals intros; rfl

/-- Settles O49: another capacity passes through every tick. -/
theorem ticksIgnoreCapacity : Obligations.TicksIgnoreCapacity := fun s k =>
  ⟨fun n => (passesTicks_capacity k).exec_tick n s, (passesTicks_capacity k).exec_process s⟩

/-- `s` with its pins in output mode. -/
def State.configured (s : State) : State := { s with pinConfigured := true }

theorem passesTicks_configured : PassesTicks State.configured := by
  constructor
  case tick =>
    intro s n
    have hcap : (s.configureDirection.adopt.protocolAction n).capacity = s.capacity := by simp
    exact (tick_withUnread s n s.capacity true).trans (by rw [← hcap]; rfl)
  all_goals intros; rfl

/-- A command does to a state with its pins in output mode what it does to the state itself. -/
theorem exec_configured (i : Instr) (s : State) : exec i s.configured = mapState State.configured (exec i s) := by
  cases i with
  | setup m d c l =>
    refine Eq.trans ?_ (whenRunning_mapState (g := State.configured) rfl _)
    rw [apply_ite (mapState _)]
    rfl
  | setdata bits =>
    have hgrow : s.configured.growFor bits = (s.growFor bits).configured := by simp only [growFor_eq]; rfl
    refine Eq.trans ?_ (whenRunning_mapState (g := State.configured) rfl _)
    rw [apply_ite (mapState _)]
    show whenRunning _ (if _ then _ else .next ((s.configured.growFor bits).publish bits)) = _
    rw [hgrow]
    rfl
  | datasent => exact whenRunning_mapState (g := State.configured) rfl (.next (s.respond s.dataSentWord))
  | tick n => exact passesTicks_configured.exec_tick n s
  | process => exact passesTicks_configured.exec_process s

/-- Settles O48: whatever `pinConfigured` is, setting it before a command or after makes the same outcome. -/
theorem pinConfiguredIsUnobserved : Obligations.PinConfiguredIsUnobserved := by
  refine ⟨fun s t n hd h => ?_, fun s t h hr => (step_onlyAdds h hr).pinConfigured, fun rest s t hturn h => ?_,
    fun i s v => ?_⟩
  · obtain ⟨-, -, -, -, rfl⟩ := execTick_eq_next h
    simp [hd]
  · cases (step_of_reset hturn).symm.trans h
    rfl
  · have hset : ∀ u : State, mapState (fun t => { t with pinConfigured := false }) (exec i u.configured)
        = mapState (fun t => { t with pinConfigured := false }) (exec i u) := fun u => by
      rw [exec_configured, mapState_mapState]
      rfl
    exact (hset { s with pinConfigured := v }).symm.trans (hset s)

end Sys2Proof.Machine

/-! SUPPORT. What writes the live buffer (20_memory.md R53): of the effects of the commands, a tick's adoption alone. -/

namespace Sys2Proof.Machine

/-- From `s` to `t` the live buffer stays, or the whole pending message is adopted and its transmission begun (R122,
R125). -/
def BufKeptOrAdopted (s t : State) : Prop :=
  t.buf = s.buf ∨ (s.pending = some t.buf ∧ t.pending = none ∧ t.cursor.toNat = 0 ∧ t.state = .transmitting)

/-- The relation reads the block alone. -/
theorem BufKeptOrAdopted.of_sameBlock {s r u t : State} (h : BufKeptOrAdopted r u) (hsr : SameBlock s r)
    (hut : SameBlock u t) : BufKeptOrAdopted s t := by
  unfold BufKeptOrAdopted
  rwa [hut.buf, hut.pending, hut.cursor, hut.state, ← hsr.buf, ← hsr.pending]

theorem bufKeptOrAdopted_tick (s : State) (n : Nat) :
    BufKeptOrAdopted s (s.configureDirection.adopt.protocolAction n) := by
  cases hp : s.pending with
  | none =>
    rw [adopt_of_none (by simpa using hp)]
    exact .inl (by simp)
  | some bits =>
    rw [tick_of_pending n hp]
    exact .inr ⟨hp, rfl, rfl, rfl⟩

theorem Effect.bufKeptOrAdopted {i : Instr} {s t : State} (he : Effect i s t) : BufKeptOrAdopted s t := by
  cases he with
  | setup => exact .inl rfl
  | setdata => exact .inl (by simp)
  | datasent => exact .inl rfl
  | noTick => exact .inl rfl
  | tick n => exact bufKeptOrAdopted_tick s n

/-- Settles O45: a step that is not a reset leaves the block, or does to it what one command does. -/
theorem bufferWrittenOnlyByAdoption : Obligations.BufferWrittenOnlyByAdoption := by
  intro s t h hr
  rcases step_effect h with ⟨rest, hturn, -⟩ | hsame | ⟨i, r, u, hsr, hru, hut⟩
  · simp [hturn] at hr
  · exact .inl hsame.buf
  · exact hru.bufKeptOrAdopted.of_sameBlock hsr hut

end Sys2Proof.Machine

/-! SUPPORT. The decoder on numbers and on the headers of forms, what it takes from a word sequence, and the words the
encoder writes; with the statements of 30_encoding.md that rest on them. -/

namespace Sys2Proof

/-! ### Headers (30_encoding.md R70, R71, R78) -/

/-- With the reserved bits zero a header is packed from its other two fields. -/
theorem eq_packHeader_of_rsvdOf {h : Word} (hr : rsvdOf h = 0#4) :
    h = packHeader (imm24Of h) ((opOf h).setWidth 32) := by
  have hop : ((opOf h).setWidth 32).toNat = h.toNat % 16 := by
    rw [BitVec.toNat_setWidth, opOf_toNat]
    omega
  have hr' : h.toNat / 16 % 16 = 0 := by rw [← rsvdOf_toNat, hr]; rfl
  apply BitVec.eq_of_toNat_eq
  rw [packHeader_toNat _ _ (by omega), hop, imm24Of_toNat]
  omega

/-- Every form's header decodes to the form. -/
theorem decodeHeader_header (f : Form) : decodeHeader f.header = some f := by
  cases f with
  | setup m => exact Laws.HeaderDecodes.setup m 0#32 0#32 0#32 rfl
  | setdata len =>
    simp [decodeHeader, Form.header, rsvdOf_packHeader, opOf_packHeader, imm24Of_packHeader]
  | datasent => exact Laws.HeaderDecodes.datasent rfl
  | tick n => exact Laws.HeaderDecodes.tick n rfl
  | process => exact Laws.HeaderDecodes.process rfl

/-- What the decoder reads from a header packs to that header again. -/
theorem eq_header_of_decodeHeader {h : Word} {f : Form} (hd : decodeHeader h = some f) : h = f.header := by
  unfold decodeHeader at hd
  split_ifs at hd with hr hsetup hsetdata hdatasent himm htick hprocess himm
  all_goals
    have hp := eq_packHeader_of_rsvdOf (not_not.mp hr)
    cases hd
  · rwa [hsetup] at hp
  · rwa [hsetdata] at hp
  · rwa [hdatasent, not_not.mp himm] at hp
  · rwa [htick] at hp
  · rwa [hprocess, not_not.mp himm] at hp

/-- Settles O3: both directions, form by form. -/
theorem headerDecodesExactly : Obligations.HeaderDecodesExactly := fun _ f =>
  ⟨eq_header_of_decodeHeader, fun e => e ▸ decodeHeader_header f⟩

/-- A header as a number, its fields apart: the opcode map of R78. -/
theorem decodeHeader_eq (h : Word) :
    decodeHeader h =
      if h.toNat / 16 % 16 ≠ 0 then none
      else if h.toNat % 16 = 1 then some (.setup (BitVec.ofNat 24 (h.toNat / 256)))
      else if h.toNat % 16 = 2 then some (.setdata (BitVec.ofNat 24 (h.toNat / 256)))
      else if h.toNat % 16 = 3 then (if h.toNat / 256 ≠ 0 then none else some .datasent)
      else if h.toNat % 16 = 4 then some (.tick (BitVec.ofNat 24 (h.toNat / 256)))
      else if h.toNat % 16 = 5 then (if h.toNat / 256 ≠ 0 then none else some .process)
      else none := by
  simp only [decodeHeader, ne_eq, ← BitVec.toNat_inj, rsvdOf_toNat, opOf_toNat, imm24Of_toNat, ← imm24Of_eq]
  rfl

/-! ### What the decoder takes (30_encoding.md R73, R80) -/

/-- The number of payload words, from the header as a number. -/
theorem payload_eq_of_header (f : Form) :
    f.payload = if f.header.toNat % 16 = 1 then 3
      else if f.header.toNat % 16 = 2 then (f.header.toNat / 256 + 31) / 32 else 0 := by
  have hpack (m : Imm24) (op : Word) (hop : op.toNat < 16) :
      (packHeader m op).toNat % 16 = op.toNat ∧ (packHeader m op).toNat / 256 = m.toNat := by
    rw [packHeader_toNat m op (by omega)]
    omega
  cases f with
  | setup m => simp [Form.payload, Form.header, hpack]
  | setdata len => simp [Form.payload, Form.header, hpack, payloadCount]
  | datasent => rfl
  | tick n => simp [Form.payload, Form.header, hpack]
  | process => rfl

/-- A decoded word sequence is a legal header, the payload its form asks for, and the words left. -/
theorem decode_cons_eq_ok {h : Word} {ps rest : List Word} {i : Instr} (hd : decode (h :: ps) = .ok (i, rest)) :
    ∃ (f : Form) (qs : List Word),
      h = f.header ∧ ps = qs ++ rest ∧ qs.length = f.payload ∧ i = assemble f qs := by
  cases hf : decodeHeader h with
  | none => simp [decode, hf] at hd
  | some f =>
    simp only [decode, hf] at hd
    split at hd
    · cases hd
    · next hl =>
      cases hd
      exact ⟨f, ps.take f.payload, eq_header_of_decodeHeader hf, (List.take_append_drop _ _).symm,
        List.length_take_of_le (by omega), rfl⟩

/-- Settles O4: the opcode map on numbers; the payload as the header counts it; the fault of an illegal header. -/
theorem decoderFollowsOpcodeMap : Obligations.DecoderFollowsOpcodeMap := by
  intro h
  refine ⟨?_, ?_, ?_, ?_, ?_, ?_, ?_, ?_, ?_, ?_, ?_, ?_⟩
  · intro hr; rw [decodeHeader_eq, if_pos hr]
  · intro hr hop; simp [decodeHeader_eq, hr, hop]
  · intro hr hop; simp [decodeHeader_eq, hr, hop]
  · intro hr hop hi; simp [decodeHeader_eq, hr, hop, hi]
  · intro hr hop hi; simp [decodeHeader_eq, hr, hop, hi]
  · intro hr hop; simp [decodeHeader_eq, hr, hop]
  · intro hr hop hi; simp [decodeHeader_eq, hr, hop, hi]
  · intro hr hop hi; simp [decodeHeader_eq, hr, hop, hi]
  · intro hr hop
    rw [decodeHeader_eq, if_neg (by omega), if_neg (by omega), if_neg (by omega), if_neg (by omega),
      if_neg (by omega), if_neg (by omega)]
  · intro f ps hf hl
    obtain rfl := eq_header_of_decodeHeader hf
    have := decode_of_form hf ps [] (hl.trans (payload_eq_of_header f).symm)
    exact ⟨_, by rwa [List.append_nil] at this⟩
  · intro hd ps; simp [decode, hd]
  · intro hd a ps s; exact Machine.runCommand_of_illegal a ps s hd

/-- Only the payload bits of the message are read. -/
theorem messageBits_congr {len : Nat} {ps qs : List Word}
    (h : ∀ k, k < len → (ps.getD (k / 32) 0#32).getLsbD (k % 32) = (qs.getD (k / 32) 0#32).getLsbD (k % 32)) :
    messageBits len ps = messageBits len qs :=
  List.map_congr_left fun k hk => h k (List.mem_range.mp hk)

/-- What the decoder answers on a `SETDATA` header with its payload. -/
theorem decode_setdata (len : Imm24) (ps rest : List Word) (hl : ps.length = payloadCount len.toNat) :
    decode (packHeader len 0x2#32 :: (ps ++ rest)) = .ok (.setdata (messageBits len.toNat ps), rest) :=
  decode_of_form (decodeHeader_header (.setdata len)) ps rest hl

/-- Settles O5: the decoded message is `messageBits` of the payload. -/
theorem messageBitsFromPayload : Obligations.MessageBitsFromPayload := by
  intro len ps rest hl
  refine ⟨⟨messageBits len.toNat ps, decode_setdata len ps rest hl, messageBits_length _ _,
    fun k hk => messageBits_getElem? _ _ k hk⟩, fun ps' hl' hbits => ?_⟩
  have hd' := decode_setdata len ps' rest (hl'.trans hl)
  rw [messageBits_congr hbits] at hd'
  exact hd'.trans (decode_setdata len ps rest hl).symm

/-! ### What the encoder writes (30_encoding.md R72 to R76, R80, R83) -/

/-- The words of a command after its header. -/
def Instr.payloadWords : Instr → List Word
  | .setup _ d c l => [d, c, l]
  | .setdata bits => packMessage bits
  | .datasent => []
  | .tick _ => []
  | .process => []

theorem encode_eq_cons (i : Instr) : encode i = i.header :: i.payloadWords := by
  cases i <;> rfl

/-- Bit `k` of the packed payload is message bit `k`, or zero past the message. -/
theorem getLsbD_packMessage (bits : List Bool) (k : Nat) :
    ((packMessage bits).getD (k / 32) 0#32).getLsbD (k % 32) = bits.getD k false := by
  by_cases hk : k / 32 < payloadCount bits.length
  · rw [← getLsbD_messageWord]
    simp [packMessage, List.getElem?_range hk]
  · have hp : (packMessage bits).length ≤ k / 32 := by rw [packMessage_length]; omega
    have hb : bits.length ≤ k := by unfold payloadCount at hk; omega
    simp [List.getElem?_eq_none hp, List.getElem?_eq_none hb]

/-- Unpacking a packed message gives it back. -/
theorem messageBits_packMessage (bits : List Bool) : messageBits bits.length (packMessage bits) = bits := by
  apply List.ext_getElem (messageBits_length _ _)
  intro k _ hk
  simp only [messageBits, List.getElem_map, List.getElem_range, getLsbD_packMessage]
  exact (List.getElem_eq_getD false).symm

/-- A well-formed message's length is what its header holds. -/
theorem toNat_ofNat_length {bits : List Bool} (hw : (Instr.setdata bits).wellFormed = true) :
    (BitVec.ofNat 24 bits.length).toNat = bits.length := by
  have : bits.length < 16777216 := of_decide_eq_true hw
  rw [BitVec.toNat_ofNat]
  omega

theorem payloadWords_length {i : Instr} (hw : i.wellFormed = true) : i.payloadWords.length = i.form.payload := by
  cases i with
  | setdata bits => simp only [Instr.payloadWords, Instr.form, Form.payload, packMessage_length, toNat_ofNat_length hw]
  | setup | datasent | tick | process => rfl

/-- A well-formed command is assembled again from its form and payload. -/
theorem assemble_payloadWords {i : Instr} (hw : i.wellFormed = true) : assemble i.form i.payloadWords = i := by
  cases i with
  | setdata bits =>
    simp only [Instr.payloadWords, Instr.form, assemble, toNat_ofNat_length hw, messageBits_packMessage]
  | setup | datasent | tick | process => rfl

/-- Settles O2: the header decodes to its form, and the form and the payload assemble to the command. -/
theorem decodeOfEncode : Obligations.DecodeOfEncode := by
  intro i hw rest
  have hd := decode_of_form (decodeHeader_header i.form) i.payloadWords rest (payloadWords_length hw)
  rwa [assemble_payloadWords hw, ← List.cons_append, ← Instr.header, ← encode_eq_cons] at hd

/-- The length of R80 is one word more than the payload of the header's form. -/
theorem length_eq_payload_succ (f : Form) :
    (if f.header.toNat % 16 = 1 then 4
      else if f.header.toNat % 16 = 2 then 1 + (f.header.toNat / 256 + 31) / 32 else 1) = f.payload + 1 := by
  rw [payload_eq_of_header]
  split_ifs <;> omega

/-- Settles O6: for the encoder from `encode_eq_cons`, for the decoder from `decode_cons_eq_ok`. -/
theorem lengthFromHeaderAlone : Obligations.LengthFromHeaderAlone := by
  refine ⟨fun i hw => ⟨by rw [encode_eq_cons]; rfl, ?_⟩, fun h ps rest i hd => ?_⟩
  · rw [encode_eq_cons, List.length_cons, payloadWords_length hw]
    exact (length_eq_payload_succ i.form).symm
  · obtain ⟨f, qs, rfl, rfl, hl, -⟩ := decode_cons_eq_ok hd
    have := length_eq_payload_succ f
    simp only [List.length_cons, List.length_append, hl, this]
    omega

/-- Settles O7: the layouts are the encoder's own; the payload bits are those of `getLsbD_packMessage`. -/
theorem commandWords : Obligations.CommandWords := by
  refine ⟨fun _ _ _ _ => rfl, fun bits => ⟨packMessage bits, rfl, packMessage_length bits, ?_, ?_⟩, rfl,
    fun _ => rfl, rfl⟩
  · intro k hk
    rw [getLsbD_packMessage, ← List.getElem_eq_getD (h := hk), List.getElem?_eq_getElem hk]
  · intro k hk
    rw [getLsbD_packMessage, List.getD_eq_default _ _ hk]

/-- A well-formed command is read from the words it is written as. -/
theorem decode_and_encode {i : Instr} {ws : List Word} (hw : i.wellFormed = true) (he : encode i = ws) :
    decode ws = .ok (i, []) ∧ encode i = ws :=
  ⟨by simpa [he] using decodeOfEncode i hw [], he⟩

/-- Settles O1: each encoding is written as listed, so by O2 it is read back. -/
theorem workedEncodings : Obligations.WorkedEncodings :=
  ⟨decode_and_encode rfl rfl, decode_and_encode rfl (by decide), decode_and_encode rfl rfl,
    decode_and_encode rfl rfl, decode_and_encode rfl rfl, decode_and_encode rfl rfl⟩

end Sys2Proof

/-! SUPPORT. The events of a protocol action, and a block at rest, in Idle with nothing pending; with the statements of
40_setup.md that rest on them. -/

namespace Sys2Proof.Machine

/-! ### `SETUP` (40_setup.md R90) -/

/-- Settles O10: the answer is `bindPins`, and the larger 24-bit quantity is the larger number. -/
theorem setupResult : Obligations.SetupResult := by
  intro s m d c l hf hm
  exact ⟨_, exec_setup_completes d c l hf hm, rfl, rfl, rfl, rfl, rfl, maxImm_toNat _ _, rfl, rfl, rfl,
    by constructor <;> rfl, rfl, rfl, by constructor <;> rfl⟩

/-! ### The events of a tick (42_process.md R124 to R128) -/

/-- What the protocol action of a state emits. -/
def State.protocolEvents (s : State) (n : Nat) : List Event :=
  match s.state with
  | .idle => []
  | .start => [.wr s.pins.latch n s.inactiveLevel]
  | .transmitting =>
    match s.bufRead s.cursor.toNat with
    | some v => [.wr s.pins.data n v, .clockPulse s.pins.clock n]
    | none => []
  | .stop => [.wr s.pins.latch n s.activeLevel]

theorem protocolAction_trace (s : State) (n : Nat) : (s.protocolAction n).trace = s.trace ++ s.protocolEvents n := by
  unfold State.protocolAction State.protocolEvents
  cases s.state with
  | idle => simp
  | start => simp
  | transmitting => cases hv : s.bufRead s.cursor.toNat <;> simp [State.transmitAction, hv]
  | stop => simp

/-- A protocol action writes to the bound pins alone. -/
theorem mem_protocolEvents {s : State} {n : Nat} {e : Event} (he : e ∈ s.protocolEvents n) :
    (∃ v, e = .wr s.pins.data n v) ∨ (∃ v, e = .wr s.pins.latch n v) ∨ e = .clockPulse s.pins.clock n := by
  unfold State.protocolEvents at he
  split at he
  · cases he
  · exact .inr (.inl ⟨_, List.mem_singleton.1 he⟩)
  · split at he
    · next v _ =>
      obtain rfl | he := List.mem_cons.1 he
      · exact .inl ⟨v, rfl⟩
      · exact .inr (.inr (List.mem_singleton.1 he))
    · cases he
  · exact .inr (.inl ⟨_, List.mem_singleton.1 he⟩)

theorem protocolEvents_of_transmitting {s : State} {v : Bool} (n : Nat) (hs : s.state = .transmitting)
    (hv : s.buf[s.cursor.toNat]? = some v) :
    s.protocolEvents n = [.wr s.pins.data n v, .clockPulse s.pins.clock n] := by
  simp [State.protocolEvents, State.bufRead, hs, hv]

/-- A tick emits the direction events that are due and then those of its protocol action (R123). -/
theorem tick_trace (s : State) (n : Nat) :
    (s.configureDirection.adopt.protocolAction n).trace
      = s.trace ++ (s.dueDirEvents ++ s.configureDirection.adopt.protocolEvents n) := by
  rw [protocolAction_trace, State.adopt_trace, configureDirection_trace, List.append_assoc]

theorem exec_tick_completes {s : State} {n : Imm24} (hf : s.fault = none) (hb : s.bound = true)
    (hn : n.toNat < s.frame) (he : s.emptyAt = false) :
    exec (.tick n) s = .next (s.configureDirection.adopt.protocolAction n.toNat) :=
  (exec_tick_of_running n hf).trans (tickStep_completes _ hb hn he)

/-- Settles O12: after the `SETUP` the direction events are due, and every other event of the tick is one of a protocol
action on the pins it bound. -/
theorem setupAgainMovesToNewPins : Obligations.SetupAgainMovesToNewPins := by
  intro s m d c l hf hm
  refine ⟨_, exec_setup_completes d c l hf hm, rfl, rfl, rfl, rfl, rfl, fun n hn he => ?_⟩
  refine ⟨_, _, exec_tick_completes hf rfl hn he, tick_trace _ _, fun e h => ?_, fun v hs hp hv => ?_⟩
  · simpa using mem_protocolEvents h
  · rw [adopt_of_none (by simpa using hp), protocolEvents_of_transmitting _ (by simpa using hs) (by simpa using hv)]
    simp

/-! ### A block at rest (40_setup.md R92) -/

/-- A bound and running block in Idle with nothing pending. -/
structure State.Resting (s : State) : Prop where
  running : s.fault = none
  bound : s.bound = true
  idle : s.state = .idle
  pending : s.pending = none

theorem dueDirEvents_isDirOut {s : State} {e : Event} (he : e ∈ s.dueDirEvents) : e.isDirOut = true := by
  unfold State.dueDirEvents at he
  split at he
  · simp only [State.dirEvents, List.mem_cons, List.not_mem_nil, or_false] at he
    obtain rfl | rfl | rfl := he <;> rfl
  · cases he

section
variable {s : State} (h : s.Resting)
include h

theorem State.Resting.bindPins (m : Imm24) (d c l : PinId) : (s.bindPins m d c l).Resting :=
  ⟨h.running, rfl, h.idle, h.pending⟩

theorem State.Resting.configureDirection : s.configureDirection.Resting := by
  constructor <;> simp [h.running, h.bound, h.idle, h.pending]

/-- A tick at rest only configures the pins' direction, if that is due (R124). -/
theorem State.Resting.exec_tick {n : Imm24} (hn : n.toNat < s.frame) :
    exec (.tick n) s = .next s.configureDirection := by
  rw [exec_tick_completes h.running h.bound hn (by simp [State.emptyAt, h.idle]), tick_of_idle _ h.pending h.idle]

/-- A `SETUP` and a tick leave the block at rest and request directions at most. -/
theorem State.Resting.exec_rests {i : Instr}
    (hi : (∃ m d c l, i = .setup m d c l ∧ m.toNat ≤ s.params.maxBits) ∨ ∃ n, i = .tick n ∧ n.toNat < s.frame) :
    ∃ t es, exec i s = .next t ∧ t.Resting ∧ t.params = s.params ∧ t.frame = s.frame
      ∧ t.trace = s.trace ++ es ∧ ∀ e ∈ es, e.isDirOut = true := by
  obtain ⟨m, d, c, l, rfl, hm⟩ | ⟨n, rfl, hn⟩ := hi
  · exact ⟨_, [], exec_setup_completes d c l h.running hm, h.bindPins m d c l, rfl, rfl,
      (List.append_nil _).symm, by simp⟩
  · exact ⟨_, _, h.exec_tick hn, h.configureDirection, by simp, by simp, configureDirection_trace s,
      fun _ => dueDirEvents_isDirOut⟩

end

/-- Settles O13, by induction on the commands: each leaves the block at rest. -/
theorem setupNeverStartsTransmission : Obligations.SetupNeverStartsTransmission := by
  intro cmds s hf hb hs hp hcmds
  have h : s.Resting := ⟨hf, hb, hs, hp⟩
  clear hf hb hs hp
  induction cmds generalizing s with
  | nil => exact ⟨s, [], rfl, h.idle, h.pending, (List.append_nil _).symm, by simp⟩
  | cons i rest ih =>
    obtain ⟨hi, hrest⟩ := List.forall_mem_cons.1 hcmds
    obtain ⟨u, es, hu, hresting, hparams, hframe, htrace, hdir⟩ := h.exec_rests hi
    obtain ⟨t, fs, ht, hidle, hpending, htrace', hdir'⟩ := ih u (by rwa [hparams, hframe]) hresting
    exact ⟨t, es ++ fs, (runCommands_of_next rest hu).trans ht, hidle, hpending,
      by rw [htrace', htrace, List.append_assoc], List.forall_mem_append.2 ⟨hdir, hdir'⟩⟩

end Sys2Proof.Machine

/-! SUPPORT. The growth mark of a `SETDATA`, the tick that adopts a message, and the word of a `DATASENT` response; with
the statements of 41_data_update.md that rest on them. -/

namespace Sys2Proof.Machine

/-! ### The growth mark (41_data_update.md R100, R101) -/

/-- What the growth path emits for a message. -/
def State.growEvents (s : State) (bits : List Bool) : List Event :=
  if s.capacity.toNat < bits.length then [.grow s.capacity (messageLength bits)] else []

theorem growFor_trace (s : State) (bits : List Bool) : (s.growFor bits).trace = s.trace ++ s.growEvents bits := by
  rw [growFor_eq]
  rfl

theorem growEvents_of_lt {s : State} {bits : List Bool} (h : s.capacity.toNat < bits.length) :
    s.growEvents bits = [.grow s.capacity (messageLength bits)] := if_pos h

theorem growEvents_isGrow {s : State} {bits : List Bool} {e : Event} (he : e ∈ s.growEvents bits) :
    e.isGrow = true := by
  unfold State.growEvents at he
  split at he
  · rw [List.mem_singleton.1 he]; rfl
  · cases he

/-- Settles O14: the answer is the grown state with the message published, and the growth path writes the capacity and
the trace alone. -/
theorem setdataPublishes : Obligations.SetdataPublishes := by
  intro s bits hf hl
  refine ⟨_, exec_setdata_completes hf hl, rfl, growFor_capacity_toNat hl, fun hgrow => ?_, fun hfits => ?_,
    State.growFor_buf .., State.growFor_cursor .., State.growFor_state .., State.growFor_params ..,
    State.growFor_pins .., State.growFor_bound .., State.growFor_pinConfigured .., State.growFor_dirPending ..,
    State.growFor_fault .., State.growFor_responses .., ?_⟩
  · rw [State.publish_trace, growFor_trace, growEvents_of_lt hgrow, messageLength]
  · rw [State.publish_trace, growFor_of_le hfits]
  · constructor <;> simp

/-! ### The latest write wins (41_data_update.md R102) -/

/-- The tick after a message is published adopts it, whatever is in flight, and carries out Start (42_process.md
R122). -/
theorem exec_tick_adopts {s : State} {bits : List Bool} {n : Imm24} (hf : s.fault = none) (hb : s.bound = true)
    (hn : n.toNat < s.frame) (hp : s.pending = some bits) :
    exec (.tick n) s = .next { s.configureDirection with
      buf := bits, pending := none, cursor := 0#24, state := .transmitting
      trace := s.configureDirection.trace ++ [.wr s.pins.latch n.toNat s.inactiveLevel] } := by
  rw [exec_tick_completes hf hb hn (by simp [State.emptyAt, hp]), tick_of_pending _ hp]

/-- Settles O15: the second `SETDATA` replaces the pending message, which the tick adopts; the trace gains the growth
marks, the direction events that are due and the Start action's write. -/
theorem latestWriteWins : Obligations.LatestWriteWins := by
  intro s b₁ b₂ n hf hb hn h₁ h₂
  have hset₁ := exec_setdata_completes hf h₁
  have hset₂ := exec_setdata_completes (s := (s.growFor b₁).publish b₁) (by simpa using hf) (by simpa using h₂)
  have htick := exec_tick_adopts (s := (((s.growFor b₁).publish b₁).growFor b₂).publish b₂) (n := n)
    (by simpa using hf) (by simpa using hb) (by simpa using hn) rfl
  refine ⟨_, s.growEvents b₁ ++ (((s.growFor b₁).publish b₁).growEvents b₂
      ++ (s.dueDirEvents ++ [.wr s.pins.latch n.toNat s.inactiveLevel])),
    (runCommands_of_next _ hset₁).trans ((runCommands_of_next _ hset₂).trans (runCommands_of_next _ htick)),
    rfl, rfl, rfl, rfl, ?_, ?_⟩
  · simp [growFor_trace, State.dueDirEvents, State.dirEvents, State.inactiveLevel]
  · refine List.forall_mem_append.2 ⟨fun _ he => .inl (growEvents_isGrow he), ?_⟩
    refine List.forall_mem_append.2 ⟨fun _ he => .inl (growEvents_isGrow he), ?_⟩
    refine List.forall_mem_append.2 ⟨fun _ he => .inr (.inl (dueDirEvents_isDirOut he)), ?_⟩
    exact List.forall_mem_singleton.2 (.inr (.inr rfl))

/-! ### `DATASENT` (41_data_update.md R105) -/

theorem exec_datasent_completes {s : State} (hf : s.fault = none) :
    exec .datasent s = .next (s.respond s.dataSentWord) :=
  whenRunning_of_running hf _

theorem dataSent_iff (s : State) : s.dataSent = true ↔ s.state = .idle ∧ s.pending = none := decide_eq_true_iff

/-- Settles O18: the response is `dataSentWord`, and dataSent is Idle with nothing pending. -/
theorem datasentResponds : Obligations.DatasentResponds := by
  intro s hf
  refine ⟨_, exec_datasent_completes hf, fun h => ?_, fun h => ?_⟩
  · exact if_pos ((dataSent_iff s).2 h)
  · exact if_neg fun hd => h ((dataSent_iff s).1 hd)

end Sys2Proof.Machine

/-! SUPPORT. A `TICK` on each row of the transition table, the transmission's part of a tick apart from the rest of the
state, and what a tick emits and leaves; with the statements of 42_process.md that rest on them. -/

namespace Sys2Proof.Machine

/-! ### `TICK`, row by row (42_process.md R122 to R129) -/

theorem emptyAt_of_pending {s : State} {bits : List Bool} (hp : s.pending = some bits) : s.emptyAt = false := by
  simp [State.emptyAt, hp]

theorem emptyAt_of_state_ne {s : State} (hs : s.state ≠ .transmitting) : s.emptyAt = false := by
  simp [State.emptyAt, hs]

theorem emptyAt_of_lt {s : State} (hlt : s.cursor.toNat < s.buf.length) : s.emptyAt = false := by
  simp [State.emptyAt, hlt]

section
variable {s : State} {n : Imm24} (hf : s.fault = none) (hb : s.bound = true) (hn : n.toNat < s.frame)
  (hp : s.pending = none)
include hf hb hn hp

theorem exec_tick_idles (hs : s.state = .idle) : exec (.tick n) s = .next s.configureDirection :=
  State.Resting.exec_tick ⟨hf, hb, hs, hp⟩ hn

theorem exec_tick_starts (hs : s.state = .start) :
    exec (.tick n) s = .next (s.configureDirection.startAction n.toNat) := by
  rw [exec_tick_completes hf hb hn (emptyAt_of_state_ne (by simp [hs])), tick_of_start _ hp hs]

theorem exec_tick_shifts (hs : s.state = .transmitting) {v : Bool} (hv : s.buf[s.cursor.toNat]? = some v) :
    exec (.tick n) s = .next (s.configureDirection.shiftBit n.toNat v) := by
  have hlt := (List.getElem?_eq_some_iff.1 hv).1
  rw [exec_tick_completes hf hb hn (emptyAt_of_lt hlt), tick_of_transmitting _ hp hs hv]

theorem exec_tick_stops (hs : s.state = .stop) :
    exec (.tick n) s = .next (s.configureDirection.stopAction n.toNat) := by
  rw [exec_tick_completes hf hb hn (emptyAt_of_state_ne (by simp [hs])), tick_of_stop _ hp hs]

theorem exec_tick_empty (hs : s.state = .transmitting) (hl : s.buf.length ≤ s.cursor.toNat) :
    ∃ c a, exec (.tick n) s = .fault (.raised c a) ∧ c.cause = .emptyMessage := by
  rw [exec_tick_of_running n hf, tickStep_empty _ hb hn ((emptyAt_iff s).2 ⟨hp, hs, hl⟩)]
  exact ⟨_, _, rfl, rfl⟩

end

/-- Settles O22: one lemma for each row. -/
theorem tickTransitionTable : Obligations.TickTransitionTable := by
  intro s n hf hb hn
  refine ⟨fun bits hp => ?_, fun hp hs => ?_, fun hp hs => ?_, fun hp hs hlt => ?_, fun hp hs heq => ?_,
    exec_tick_empty hf hb hn, fun hp hs => ?_⟩
  · exact ⟨_, exec_tick_adopts hf hb hn hp, rfl⟩
  · exact ⟨_, exec_tick_idles hf hb hn hp hs, by simpa using hs⟩
  · exact ⟨_, exec_tick_starts hf hb hn hp hs, rfl⟩
  · exact ⟨_, exec_tick_shifts hf hb hn hp hs (List.getElem?_eq_getElem (by omega)), by simp; omega⟩
  · exact ⟨_, exec_tick_shifts hf hb hn hp hs (List.getElem?_eq_getElem (by omega)), by simp [heq]⟩
  · exact ⟨_, exec_tick_stops hf hb hn hp hs, rfl⟩

/-- Settles O23. -/
theorem tickAdoptsPending : Obligations.TickAdoptsPending := by
  intro s n bits hf hb hn hp
  exact ⟨_, exec_tick_adopts hf hb hn hp, rfl, rfl, rfl, rfl, by simp⟩

/-- Settles O24: direction configuration is all there is to an Idle tick. -/
theorem idleTickDoesNothing : Obligations.IdleTickDoesNothing := by
  intro s n hf hb hn hs hp
  rw [exec_tick_idles hf hb hn hp hs]
  refine ⟨fun hd => ?_, fun hd => ?_⟩
  · rw [configureDirection_of_notPending hd]
  · simp [configureDirection_eq, State.dueDirEvents, State.dirEvents, hd]

/-- Settles O25. -/
theorem startTick : Obligations.StartTick := by
  intro s n hf hb hn hs hp
  exact ⟨_, exec_tick_starts hf hb hn hp hs, by simp [State.inactiveLevel], rfl, rfl, by simp, by simpa using hp⟩

/-- Settles O27: the bit at the cursor is shifted out; an empty buffer has none. -/
theorem transmittingTick : Obligations.TransmittingTick := by
  intro s n hf hb hn hs hp
  refine ⟨fun v hv => ?_, fun hbuf => exec_tick_empty hf hb hn hp hs (by simp [hbuf])⟩
  exact ⟨_, exec_tick_shifts hf hb hn hp hs hv, by simp, by simp, fun h => by simp [h], fun h => by simp [h], by simp,
    by simpa using hp⟩

theorem lineLevel_append_wr (pin : PinId) (trace : List Event) (n : Nat) (v : Level) :
    lineLevel pin (trace ++ [.wr pin n v]) = some v := by
  simp [lineLevel]

/-- Settles O28: the active write is the last event of the tick. -/
theorem stopTick : Obligations.StopTick := by
  intro s n hf hb hn hs hp
  refine ⟨_, exec_tick_stops hf hb hn hp hs, by simp [State.activeLevel], ?_, rfl, by simp, by simp,
    by simpa using hp⟩
  rw [State.lvLatch, State.stopAction_trace]
  exact (lineLevel_append_wr _ _ _ _).trans (by simp [State.activeLevel])

/-! ### What a tick leaves (42_process.md R123) -/

@[simp] theorem adopt_pending (s : State) : s.adopt.pending = none := by
  cases hp : s.pending with
  | none => rwa [adopt_of_none hp]
  | some bits => rw [adopt_of_some hp]

theorem tick_sameInterface (s : State) (n : Nat) :
    SameInterface s (s.configureDirection.adopt.protocolAction n) := by
  constructor <;> simp

/-- Settles O29: the parts of a tick leave these elements, and adoption empties the slot. -/
theorem tickFrame : Obligations.TickFrame := by
  intro s t n h
  obtain ⟨-, -, -, -, rfl⟩ := execTick_eq_next h
  refine ⟨by simp, by simp, by simp, by simp, by simp, by simp, tick_sameInterface s _, by simp, by simp,
    fun hd => by simp [hd], fun hp => ?_⟩
  rw [adopt_of_none (by simpa using hp)]
  simp

/-! ### What a tick emits (42_process.md R131, R135) -/

/-- The three shapes of what a protocol action emits. -/
theorem protocolEvents_cases (s : State) (n : Nat) :
    s.protocolEvents n = []
    ∨ (∃ v, s.protocolEvents n = [.wr s.pins.latch n v])
    ∨ ∃ v, s.protocolEvents n = [.wr s.pins.data n v, .clockPulse s.pins.clock n] := by
  unfold State.protocolEvents
  cases s.state with
  | idle => exact .inl rfl
  | start => exact .inr (.inl ⟨_, rfl⟩)
  | transmitting =>
    cases s.bufRead s.cursor.toNat with
    | none => exact .inl rfl
    | some v => exact .inr (.inr ⟨v, rfl⟩)
  | stop => exact .inr (.inl ⟨_, rfl⟩)

theorem protocolEvents_isDirOut {s : State} {n : Nat} {e : Event} (he : e ∈ s.protocolEvents n) :
    e.isDirOut = false := by
  obtain ⟨v, rfl⟩ | ⟨v, rfl⟩ | rfl := mem_protocolEvents he <;> rfl

theorem dueDirEvents_of_pending {s : State} (h : s.dirPending = true) : s.dueDirEvents = s.dirEvents := if_pos h

theorem dueDirEvents_of_notPending {s : State} (h : s.dirPending = false) : s.dueDirEvents = [] := by
  simp [State.dueDirEvents, h]

/-- The due direction events are three requests or none. -/
theorem dueDirEvents_cases (s : State) : s.dueDirEvents = s.dirEvents ∨ s.dueDirEvents = [] := by
  cases hd : s.dirPending
  · exact .inr (dueDirEvents_of_notPending hd)
  · exact .inl (dueDirEvents_of_pending hd)

/-- The due direction events are at most three requests and nothing else. -/
theorem dueDirEvents_work (s : State) :
    s.dueDirEvents.filter Event.isClock = [] ∧ s.dueDirEvents.filter Event.isWr = []
      ∧ (s.dueDirEvents.filter Event.isDirOut).length ≤ 3 ∧ ∀ e ∈ s.dueDirEvents, e.isGrow = false := by
  obtain hd | hd := dueDirEvents_cases s
  · simp [hd, State.dirEvents, List.filter, Event.isClock, Event.isWr, Event.isDirOut, Event.isGrow]
  · simp [hd]

/-- A protocol action emits at most one clock pulse and one line write, and nothing else. -/
theorem protocolEvents_work (s : State) (n : Nat) :
    ((s.protocolEvents n).filter Event.isClock).length ≤ 1 ∧ ((s.protocolEvents n).filter Event.isWr).length ≤ 1
      ∧ (s.protocolEvents n).filter Event.isDirOut = [] ∧ ∀ e ∈ s.protocolEvents n, e.isGrow = false := by
  obtain hp | ⟨v, hp⟩ | ⟨v, hp⟩ := protocolEvents_cases s n
  · simp [hp]
  · simp [hp, List.filter, Event.isClock, Event.isWr, Event.isDirOut, Event.isGrow]
  · simp [hp, List.filter, Event.isClock, Event.isWr, Event.isDirOut, Event.isGrow]

/-- Settles O30: the work of direction configuration and of one protocol action. -/
theorem tickWorkIsBounded : Obligations.TickWorkIsBounded := by
  intro s t n h
  obtain ⟨-, -, -, -, rfl⟩ := execTick_eq_next h
  obtain ⟨hclock, hwr, hdir, hgrow⟩ := dueDirEvents_work s
  obtain ⟨hclock', hwr', hdir', hgrow'⟩ := protocolEvents_work s.configureDirection.adopt n.toNat
  refine ⟨_, tick_trace s n.toNat, ?_, ?_, ?_, List.forall_mem_append.2 ⟨hgrow, hgrow'⟩⟩
  · simpa [hclock] using hclock'
  · simpa [hwr] using hwr'
  · simpa [hdir'] using hdir

/-- A protocol action that drives the latch active is the Stop action (R128). -/
theorem state_eq_stop_of_active_write {s : State} {n : Nat} (hpins : s.pins.data ≠ s.pins.latch)
    (h : .wr s.pins.latch n s.activeLevel ∈ s.protocolEvents n) : s.state = .stop := by
  unfold State.protocolEvents at h
  split at h
  · cases h
  · simp [(inactiveLevel_ne_activeLevel s).symm] at h
  · split at h <;> simp [hpins.symm] at h
  · assumption

/-- Adoption ends in Start, so a Stop action adopts nothing. -/
theorem adopt_state_eq_stop {s : State} (h : s.adopt.state = .stop) : s.pending = none ∧ s.state = .stop := by
  cases hp : s.pending with
  | none => exact ⟨rfl, by rwa [adopt_of_none hp] at h⟩
  | some bits =>
    rw [adopt_of_some hp] at h
    cases h

/-- Settles O52: the active write is no direction request, so it is the Stop action's, and in Stop the invariant has
the cursor at the buffer's end. -/
theorem abandonedIsNeverCommitted : Obligations.AbandonedIsNeverCommitted := by
  intro s t n hinv hpins h
  obtain ⟨-, -, -, -, rfl⟩ := execTick_eq_next h
  refine ⟨_, tick_trace s n.toNat, fun hw => ?_⟩
  obtain hw | hw := List.mem_append.1 hw
  · exact absurd (dueDirEvents_isDirOut hw) (by simp [Event.isDirOut])
  · have hstop : s.configureDirection.adopt.state = .stop :=
      state_eq_stop_of_active_write (n := n.toNat) (by simpa using hpins) (by simpa [State.activeLevel] using hw)
    obtain ⟨hp, hs⟩ : s.pending = none ∧ s.state = .stop := by simpa using adopt_state_eq_stop hstop
    exact ⟨hs, hp, hinv.stop hs⟩

/-- Settles O31: the bit at the cursor exists, so the cursor was below the buffer's end. -/
theorem cursorNeverWraps : Obligations.CursorNeverWraps := by
  intro s t n hinv hs hp h
  obtain ⟨-, -, -, he, rfl⟩ := execTick_eq_next h
  have hlt : s.cursor.toNat < s.buf.length := by simpa [State.emptyAt, hp, hs] using he
  have hcursor := hinv.cursor_succ_toNat hlt
  rw [tick_of_transmitting _ hp hs (List.getElem?_eq_getElem hlt), State.shiftBit_cursor,
    State.configureDirection_cursor, hcursor]
  exact ⟨rfl, hlt.trans_le (hinv.buf_le.trans hinv.capacity_le)⟩

/-! ### Direction configuration apart from the rest of a tick (42_process.md R126) -/

/-- The tick's protocol part reads the transmission, the pins and the parameters alone. -/
structure SameForTick (s t : State) : Prop extends SameTransmission s t where
  pins : t.pins = s.pins
  params : t.params = s.params

section
variable {s t : State} (h : SameForTick s t)
include h

theorem SameForTick.adopt : SameForTick s.adopt t.adopt := by
  cases hp : s.pending with
  | none =>
    rwa [adopt_of_none hp, adopt_of_none (h.pending.trans hp)]
  | some bits =>
    rw [adopt_of_some hp, adopt_of_some (h.pending.trans hp)]
    exact ⟨by constructor <;> rfl, h.pins, h.params⟩

theorem SameForTick.protocolEvents (n : Nat) : t.protocolEvents n = s.protocolEvents n := by
  simp only [State.protocolEvents, State.bufRead, State.activeLevel, State.inactiveLevel, h.state, h.buf, h.cursor,
    h.pins, h.params]

theorem SameForTick.protocolAction (n : Nat) : SameTransmission (s.protocolAction n) (t.protocolAction n) := by
  have htrans := h.toSameTransmission
  unfold State.protocolAction
  rw [h.state]
  cases s.state with
  | idle => exact htrans
  | start => constructor <;> simp [h.buf, h.pending]
  | transmitting =>
    unfold State.transmitAction State.bufRead
    rw [h.buf, h.cursor]
    cases s.buf[s.cursor.toNat]? with
    | none => exact htrans
    | some v => constructor <;> simp [h.buf, h.pending, h.cursor]
  | stop => constructor <;> simp [h.buf, h.pending, h.cursor]

end

theorem sameForTick_configureDirection (s : State) :
    SameForTick { s with dirPending := false } s.configureDirection := by
  refine ⟨⟨?_, ?_, ?_, ?_⟩, ?_, ?_⟩ <;> simp

/-- Settles O26: configuring the direction leaves all that the rest of the tick reads. -/
theorem directionConfiguredFirst : Obligations.DirectionConfiguredFirst := by
  intro s t n hd h
  obtain ⟨hf, hb, hn, he, rfl⟩ := execTick_eq_next h
  have hsame := (sameForTick_configureDirection s).adopt
  have hu := exec_tick_completes (s := { s with dirPending := false }) hf hb hn he
  rw [configureDirection_of_notPending rfl] at hu
  refine ⟨by simp [hd], by simp, _, ({ s with dirPending := false } : State).adopt.protocolEvents n.toNat, hu, ?_, ?_,
    fun _ => protocolEvents_isDirOut, hsame.protocolAction n.toNat⟩
  · simp [protocolAction_trace]
  · rw [tick_trace, dueDirEvents_of_pending hd, hsame.protocolEvents]
    rfl

end Sys2Proof.Machine

/-! SUPPORT. A `PROCESS` and the ticks of its batch, what the commands leave of the command interface, and dataSent
along a transmission; with the statements of 42_process.md that rest on them. -/

namespace Sys2Proof.Machine

/-! ### The first tick of a `PROCESS` (42_process.md R120) -/

theorem exec_process_of_frame_zero {s : State} (hf : s.fault = none) (hN : s.frame = 0) :
    exec .process s = .next s := by
  simp [exec, execProcess, whenRunning_of_running hf, hN]

theorem exec_process_of_frame_pos {s : State} (hf : s.fault = none) (hN : 0 < s.frame) :
    exec .process s = batchTick 0 s := by
  simp [exec, execProcess, whenRunning_of_running hf, hN.ne']

/-- Settles O32. -/
theorem processOfNothing : Obligations.ProcessOfNothing := fun _ => exec_process_of_frame_zero

theorem batchTick_of_next {n : Nat} {s t : State} (h : tickStep Instr.process.header n s.frame s = .next t) :
    batchTick n s = .next (t.afterTick n) := by
  simp only [batchTick, h]

/-- Settles O33: both are the tick at index 0, and a tick leaves the frame context. -/
theorem processFirstTick : Obligations.ProcessFirstTick := by
  intro s hf hb hN he
  refine ⟨s.configureDirection.adopt.protocolAction 0, exec_tick_completes (n := 0#24) hf hb hN he, ?_⟩
  rw [exec_process_of_frame_pos hf hN, batchTick_of_next (tickStep_completes _ hb hN he), State.afterTick,
    (tick_sameInterface s 0).frame]

/-! ### What a command leaves of the command interface (42_process.md R121) -/

/-- Only a `PROCESS` writes the command interface: it notes what is left of its batch. -/
theorem exec_sameInterface {i : Instr} {s t : State} (hi : i ≠ .process) (h : exec i s = .next t) :
    SameInterface s t := by
  cases i with
  | setup m d c l =>
    obtain ⟨-, -, rfl⟩ := execSetup_eq_next h
    constructor <;> rfl
  | setdata bits =>
    obtain ⟨-, -, rfl⟩ := execSetdata_eq_next h
    constructor <;> simp
  | datasent =>
    obtain ⟨-, rfl⟩ := execDatasent_eq_next h
    constructor <;> rfl
  | tick n =>
    obtain ⟨-, -, -, -, rfl⟩ := execTick_eq_next h
    exact tick_sameInterface s _
  | process => exact absurd rfl hi

theorem ne_process_of_needsFrame {i : Instr} (hi : i.needsFrame = false) : i ≠ .process := by
  rintro rfl
  cases hi

/-- A tick of a batch leaves the interface but for the batch itself. -/
theorem batchTick_interface {n : Nat} {s t : State} (h : batchTick n s = .next t) :
    t.hostQueue = s.hostQueue ∧ t.frame = s.frame
      ∧ t.batch = (if n + 1 < s.frame then some (n + 1) else none)
      ∧ tickStep Instr.process.header n s.frame s = .next { t with batch := s.batch } := by
  obtain ⟨u, hu, rfl⟩ := batchTick_eq_next h
  obtain ⟨-, -, -, rfl⟩ := tickStep_eq_next hu
  have hint := tick_sameInterface s n
  refine ⟨hint.hostQueue, hint.frame, by simp, hu.trans ?_⟩
  rw [← hint.batch]
  rfl

/-- The tick of a batch after a message is published adopts it (R122). -/
theorem batchTick_adopts {n : Nat} {s : State} {bits : List Bool} (hb : s.bound = true) (hn : n < s.frame)
    (hp : s.pending = some bits) : ∃ t, batchTick n s = .next t ∧ t.buf = bits ∧ t.pending = none := by
  refine ⟨_, batchTick_of_next (tickStep_completes _ hb hn (emptyAt_of_pending hp)), ?_⟩
  rw [tick_of_pending n hp]
  exact ⟨rfl, rfl⟩

theorem step_of_batch {s : State} {n : Nat} {rest : List Turn} (hf : s.fault = none) (hb : s.batch = some n)
    (ht : s.turns = .host :: rest) : step s = batchTick n { s with turns := rest, issuer := .host } := by
  rw [step_of_host hf ht, hostTurn_of_batch (by exact hb)]

theorem setdata_wellFormed {p : Params} {bits : List Bool} (hl : bits.length ≤ p.maxBits) :
    (Instr.setdata bits).wellFormed = true :=
  decide_eq_true (hl.trans_lt (Params.maxBits_lt p))

/-- Settles O35: the Host's turn is a tick of its batch, the Writer's is its command, which is no `PROCESS`. -/
theorem writerBetweenTicks : Obligations.WriterBetweenTicks := by
  intro s n rest hf hb hn
  refine ⟨fun t ht h => ?_, fun words queue i ht hq hd hi => ?_, fun bits queue more hbound hl ht hq => ?_⟩
  · rw [step_of_batch hf hb ht] at h
    obtain ⟨hqueue, -, hbatch, htick⟩ := batchTick_interface h
    exact ⟨hqueue, hbatch, htick⟩
  · have hstep := stepRunsDecodedCommand.2 s words queue rest i hf ht hq hd hi
    refine ⟨hstep, fun t h => ?_⟩
    have hint := exec_sameInterface (ne_process_of_needsFrame hi) (hstep.symm.trans h)
    exact ⟨hint.batch.trans hb, hint.frame, hint.hostQueue⟩
  · have hd : decode (encode (.setdata bits)) = .ok (.setdata bits, []) :=
      (decode_and_encode (setdata_wellFormed hl) rfl).1
    have hstep := stepRunsDecodedCommand.2 s _ queue _ _ hf ht hq hd rfl
    rw [exec_setdata_completes (by exact hf) (by exact hl)] at hstep
    obtain ⟨u, hu, hbuf, hpending⟩ := batchTick_adopts (n := n) (bits := bits)
      (s := { ((({ s with turns := .host :: more, writerQueue := queue, issuer := .writer } : State).growFor
        bits).publish bits) with turns := more, issuer := .host }) (by simpa using hbound) (by simpa using hn) rfl
    exact ⟨_, u, hstep, (step_of_batch (by simpa using hf) (by simpa using hb) (by simp)).trans hu, by simpa using hb,
      hbuf, hpending⟩

/-! ### A batch stays in its frame (42_process.md R120) -/

/-- The next index of a batch in progress is below its frame count. -/
def State.BatchInFrame (s : State) : Prop := ∀ n, s.batch = some n → n < s.frame

theorem batchInFrame_of_none {s : State} (h : s.batch = none) : s.BatchInFrame := by
  simp [State.BatchInFrame, h]

theorem batchTick_batchInFrame {n : Nat} {s t : State} (h : batchTick n s = .next t) : t.BatchInFrame := by
  obtain ⟨-, hframe, hbatch, -⟩ := batchTick_interface h
  intro m hm
  rw [hbatch] at hm
  split at hm
  · next hlt =>
    cases hm
    rwa [hframe]
  · cases hm

theorem exec_batchInFrame {i : Instr} {s t : State} (hs : s.BatchInFrame) (h : exec i s = .next t) :
    t.BatchInFrame := by
  by_cases hi : i = .process
  · subst hi
    obtain ⟨hf, ⟨-, rfl⟩ | ⟨hN, -⟩⟩ := execProcess_eq_next h
    · exact hs
    · rw [exec_process_of_frame_pos hf hN] at h
      exact batchTick_batchInFrame h
  · have hint := exec_sameInterface hi h
    unfold State.BatchInFrame
    rwa [hint.batch, hint.frame]

theorem step_batchInFrame {s t : State} (hs : s.BatchInFrame) (h : step s = .next t) : t.BatchInFrame := by
  rcases step_eq_next h with ⟨rest, -, rfl⟩ | ⟨-, ⟨-, rfl⟩ | ⟨rest, -, rfl⟩ | ⟨rest, n, -, -, hb⟩
    | ⟨rest, c, queue, i, -, hb, -, -, he⟩ | ⟨rest, ws, queue, i, -, -, -, -, he⟩⟩
  · exact batchInFrame_of_none rfl
  · exact hs
  · exact hs
  · exact batchTick_batchInFrame hb
  · exact exec_batchInFrame (batchInFrame_of_none (by exact hb)) he
  · exact exec_batchInFrame (by exact hs) he

theorem batchTick_cause_ne_frameOutOfRange {n : Nat} {s a : State} {c : Raised} (hn : n < s.frame)
    (h : batchTick n s = .fault (.raised c a)) : c.cause ≠ .frameOutOfRange := by
  have hraise {r : Raised} (e : tickStep Instr.process.header n s.frame s = raise r s) : r = c :=
    (raise_eq_raised ((batchTick_of_raise e).symm.trans h)).1
  rcases tickStep_cases Instr.process.header n s.frame s with ⟨-, e⟩ | ⟨-, hle, -⟩ | ⟨-, -, -, e⟩ | ⟨-, -, -, e⟩
  · rw [← hraise e]; nofun
  · omega
  · rw [← hraise e]; nofun
  · rw [batchTick_of_next e] at h; cases h

/-- Settles O36: a batch goes on only with an index in its frame, and begins only where its frame holds index 0. -/
theorem batchStaysInFrame : Obligations.BatchStaysInFrame := by
  refine ⟨fun s t hs h => step_batchInFrame hs h, fun s n rest c a hs hb ht h => ?_, fun s c a h => ?_⟩
  · have hf : s.fault = none := by
      by_contra hf
      rw [step_of_faulted hf (by simp [ht])] at h
      cases h
    rw [step_of_batch hf hb ht] at h
    exact batchTick_cause_ne_frameOutOfRange (by exact hs n hb) h
  · have hf : s.fault = none := (whenRunning_eq_raised h).1
    obtain hN | hN := Nat.eq_zero_or_pos s.frame
    · rw [exec_process_of_frame_zero hf hN] at h
      cases h
    · rw [exec_process_of_frame_pos hf hN] at h
      exact batchTick_cause_ne_frameOutOfRange hN h

/-! ### A `PROCESS` is its ticks (42_process.md R121, log 5, 6) -/

/-- `s` with the command interface as it is in a `PROCESS` of the Host in a context of `N` sub-frames, `batch` being
what is left of it. -/
def State.inProcess (s : State) (queue : List HostCommand) (turns : List Turn) (N : Nat) (batch : Option Nat) :
    State :=
  { s with hostQueue := queue, turns := turns, issuer := .host, frame := N, batch := batch }

section
variable (s : State) (queue : List HostCommand) (turns : List Turn) (N : Nat) (batch : Option Nat)

theorem configureDirection_inProcess :
    (s.inProcess queue turns N batch).configureDirection = s.configureDirection.inProcess queue turns N batch := by
  simp only [configureDirection_eq]
  rfl

theorem adopt_inProcess : (s.inProcess queue turns N batch).adopt = s.adopt.inProcess queue turns N batch := by
  cases hp : s.pending with
  | none => rw [adopt_of_none hp, adopt_of_none (by exact hp)]
  | some bits =>
    rw [adopt_of_some hp, adopt_of_some (bits := bits) (by exact hp)]
    rfl

theorem protocolAction_inProcess (n : Nat) :
    (s.inProcess queue turns N batch).protocolAction n = (s.protocolAction n).inProcess queue turns N batch := by
  unfold State.protocolAction
  cases hs : s.state with
  | idle => simp [State.inProcess, hs]
  | start => simp [State.inProcess, hs, State.startAction, State.emit, State.inactiveLevel]
  | transmitting =>
    cases hv : s.buf[s.cursor.toNat]? <;>
      simp [State.inProcess, hs, State.transmitAction, State.bufRead, hv, State.shiftBit, State.emit]
  | stop => simp [State.inProcess, hs, State.stopAction, State.emit, State.activeLevel]

/-- A tick neither reads nor writes the command interface. -/
theorem tickStep_inProcess (header : Word) (n M : Nat) :
    tickStep header n M (s.inProcess queue turns N batch)
      = mapState (·.inProcess queue turns N batch) (tickStep header n M s) := by
  have htick : (s.inProcess queue turns N batch).configureDirection.adopt.protocolAction n
      = (s.configureDirection.adopt.protocolAction n).inProcess queue turns N batch := by
    rw [configureDirection_inProcess, adopt_inProcess, protocolAction_inProcess]
  unfold tickStep
  rw [htick]
  simp only [apply_ite (mapState _)]
  rfl

variable {s N}

theorem batchTick_inProcess_of_next {t : State} {n : Nat}
    (h : tickStep Instr.process.header n N s = .next t) :
    batchTick n (s.inProcess queue turns N batch)
      = .next (t.inProcess queue turns N (if n + 1 < N then some (n + 1) else none)) := by
  have htick := tickStep_inProcess s queue turns N batch Instr.process.header n N
  rw [h] at htick
  exact batchTick_of_next htick

theorem batchTick_inProcess_of_raised {a : State} {c : Raised} {n : Nat}
    (h : tickStep Instr.process.header n N s = .fault (.raised c a)) :
    batchTick n (s.inProcess queue turns N batch) = .fault (.raised c (a.inProcess queue turns N batch)) := by
  have htick := tickStep_inProcess s queue turns N batch Instr.process.header n N
  rw [h] at htick
  have htick' : tickStep Instr.process.header n (s.inProcess queue turns N batch).frame
      (s.inProcess queue turns N batch) = .fault (.raised c (a.inProcess queue turns N batch)) := htick
  simp only [batchTick, htick']

end

/-- `r` is what a `PROCESS` leaves whose ticks, apart from the command interface, leave `q`: after a fault some of the
batch and of the turns may be left. -/
def ProcessOutcome (queue : List HostCommand) (rest : List Turn) (N : Nat) (q r : Result) : Prop :=
  (∀ u, q = .next u → r = .next (u.inProcess queue rest N none))
  ∧ ∀ c a, q = .fault (.raised c a) → ∃ turns batch, r = .fault (.raised c (a.inProcess queue turns N batch))

/-- A step that is tick `n` of a `PROCESS`, and then the steps that are left of it. -/
theorem processOutcome_of_batchTick {queue : List HostCommand} {rest turns : List Turn} {N n k : Nat} {s s₀ : State}
    {batch : Option Nat} (hstep : step s₀ = batchTick n (s.inProcess queue turns N batch))
    (hleft : ∀ t, tickStep Instr.process.header n N s = .next t →
      ProcessOutcome queue rest N (tickSequence N (n + 1) k t)
        (core.run k (t.inProcess queue turns N (if n + 1 < N then some (n + 1) else none)))) :
    ProcessOutcome queue rest N (tickSequence N n (k + 1) s) (core.run (k + 1) s₀) := by
  cases htick : tickStep Instr.process.header n N s with
  | next t =>
    rw [batchTick_inProcess_of_next _ _ _ htick] at hstep
    rw [tickSequence_of_next k htick, core_run_of_next k hstep]
    exact hleft t htick
  | fault f =>
    have hseq : tickSequence N n (k + 1) s = .fault f := by simp only [tickSequence, htick]
    rw [hseq]
    refine ⟨?_, ?_⟩
    · rintro _ ⟨⟩
    · rintro c a ⟨⟩
      rw [batchTick_inProcess_of_raised _ _ _ htick] at hstep
      exact ⟨turns, batch, core_run_of_fault k hstep⟩
  | refused r => exact absurd htick (tickStep_ne_refused _ _ _ _ _)

/-- The `k` ticks from `n` on that are left of a batch are its next `k` steps. -/
theorem processOutcome_of_sequence (queue : List HostCommand) (rest : List Turn) {N n k : Nat} {s : State}
    (hf : s.fault = none) (hk : n + k = N) :
    ProcessOutcome queue rest N (tickSequence N n k s)
      (core.run k (s.inProcess queue (List.replicate k .host ++ rest) N (if n < N then some n else none))) := by
  induction k generalizing n s with
  | zero =>
    rw [if_neg (by omega), tickSequence_zero, core_run_zero]
    refine ⟨?_, ?_⟩
    · rintro _ ⟨⟩; rfl
    · rintro _ _ ⟨⟩
  | succ k ih =>
    rw [if_pos (by omega)]
    refine processOutcome_of_batchTick (step_of_batch hf rfl rfl) fun t ht => ih ?_ (by omega)
    obtain ⟨-, -, -, rfl⟩ := tickStep_eq_next ht
    simpa using hf

/-- Settles O34: the step that takes the command is its tick 0, and the other ticks are those left of the batch. -/
theorem processIsItsTicks : Obligations.ProcessIsItsTicks := by
  intro s N queue rest hf hb hN hq ht
  obtain ⟨k, rfl⟩ := Nat.exists_eq_succ_of_ne_zero hN.ne'
  have hd : decode [0x00000005#32] = .ok (.process, []) := (decode_and_encode (i := .process) rfl rfl).1
  have hstep : step s = batchTick 0 (s.inProcess queue (List.replicate k .host ++ rest) (k + 1) s.batch) := by
    rw [stepRunsDecodedCommand.1 s _ queue _ _ hf hb ht hq hd, exec_process_of_frame_pos (by exact hf) (by exact hN)]
    rfl
  obtain ⟨hnext, hraised⟩ :
      ProcessOutcome queue rest (k + 1) (tickSequence (k + 1) 0 (k + 1) s) (core.run (k + 1) s) :=
    processOutcome_of_batchTick hstep fun t htick => processOutcome_of_sequence queue rest
      (by obtain ⟨-, -, -, rfl⟩ := tickStep_eq_next htick; simpa using hf) (by omega)
  refine ⟨hnext, fun c u hu => ?_⟩
  obtain ⟨turns, batch, hrun⟩ := hraised c u hu
  exact ⟨⟨_, hrun⟩, by rw [hrun, hu]; rfl⟩

/-! ### dataSent along a transmission (42_process.md R136) -/

theorem dataSent_of_pending {s : State} {bits : List Bool} (hp : s.pending = some bits) : s.dataSent = false := by
  simp [State.dataSent, hp]

/-- In Stop, as in Transmitting, dataSent is 0 (90_conflicts.md C1). -/
theorem State.Sending.dataSent {s : State} {pins : Pins} {params : Params} {bits : List Bool} {k : Nat}
    (h : s.Sending pins params bits k) : s.dataSent = false := by
  simp only [State.dataSent, h.state]
  split <;> simp

/-- Fewer ticks than a pending message takes complete, with the message still under way. -/
theorem runTicks_dataSent_false {s : State} {bits : List Bool} {ticks : List (Imm24 × Nat)} (hf : s.fault = none)
    (hb : s.bound = true) (hp : s.pending = some bits) (hfits : bits.length ≤ s.params.maxBits)
    (hpos : 0 < bits.length) (hlen : ticks.length < bits.length + 2) (hin : inFrames ticks = true) :
    ∃ u, runTicks ticks s = .next u ∧ u.dataSent = false := by
  obtain _ | ⟨⟨n, N⟩, ticks⟩ := ticks
  · exact ⟨s, rfl, dataSent_of_pending hp⟩
  obtain ⟨hn, hin⟩ := inFrames_cons.1 hin
  rw [List.length_cons] at hlen
  obtain ⟨t, ht, hsend, -⟩ :=
    tickStep_adopts (s := { s with frame := N }) (Instr.tick n).header hf hb hp hfits hpos hn
  obtain ⟨u, hu, hsend', -⟩ := hsend.runTicks_shifts ticks (by omega) hin
  exact ⟨u, (runTicks_of_tickStep ticks hf ht).trans hu, hsend'.dataSent⟩

theorem inFrames_take {ticks : List (Imm24 × Nat)} (k : Nat) (hin : inFrames ticks = true) :
    inFrames (ticks.take k) = true := by
  rw [← List.take_append_drop k ticks, inFrames_append] at hin
  exact hin.1

/-- Settles O53. -/
theorem transmissionTakesLengthPlusTwoTicks : Obligations.TransmissionTakesLengthPlusTwoTicks :=
  fun _ _ _ _ _ => runTicks_transmission

/-- Settles O54: fewer than all of the ticks leave the message under way, and all of them are a transmission. -/
theorem dataSentFalseUntilStopTick : Obligations.DataSentFalseUntilStopTick := by
  intro s bits ticks hinv hf hb hl hpos hlen hin
  have hf' : ((s.growFor bits).publish bits).fault = none := by simpa using hf
  have hb' : ((s.growFor bits).publish bits).bound = true := by simpa using hb
  refine ⟨_, exec_setdata_completes hf hl, dataSent_of_pending rfl, fun k hk => ?_, ?_⟩
  · exact runTicks_dataSent_false hf' hb' rfl (by simpa using hl) hpos
      ((List.length_take_le k ticks).trans_lt hk) (inFrames_take k hin)
  · obtain ⟨first, mid, last, rfl, hmid⟩ := exists_first_mid_last hlen
    obtain ⟨u, hu, hidle, hpending, -⟩ := runTicks_transmission (Effect.inv hinv (.setdata hl)) hf' hb' rfl
      hpos hmid hin
    exact ⟨u, hu, (dataSent_iff u).2 ⟨hidle, hpending⟩⟩

/-! ### No step ends in Start (42_process.md R129) -/

theorem tick_state_ne_start {s : State} (n : Nat) (he : s.emptyAt = false) :
    (s.configureDirection.adopt.protocolAction n).state ≠ .start := by
  rcases tick_rows he with ⟨bits, hp⟩ | ⟨hp, hs⟩ | ⟨hp, hs⟩ | ⟨v, hp, hs, hv⟩ | ⟨hp, hs⟩
  · rw [tick_of_pending n hp]; nofun
  · rw [tick_of_idle n hp hs]; simp [hs]
  · rw [tick_of_start n hp hs]; nofun
  · rw [tick_of_transmitting n hp hs hv, State.shiftBit_state]; split <;> nofun
  · rw [tick_of_stop n hp hs]; nofun

theorem Effect.state_ne_start {i : Instr} {s t : State} (he : Effect i s t) (hs : s.state ≠ .start) :
    t.state ≠ .start := by
  cases he with
  | setup => exact hs
  | setdata => simpa using hs
  | datasent => exact hs
  | noTick => exact hs
  | tick n _ he => exact tick_state_ne_start n he

/-- Settles O47: a reset ends in Idle, and no effect of a command enters Start. -/
theorem noTickBeginsInStart : Obligations.NoTickBeginsInStart := by
  refine ⟨nofun, fun s t hs h => ?_⟩
  rcases step_effect h with ⟨rest, -, rfl⟩ | hsame | ⟨i, r, u, hsr, hru, hut⟩
  · nofun
  · rwa [hsame.state]
  · rw [hut.state]
    exact hru.state_ne_start (by rwa [hsr.state])

end Sys2Proof.Machine

/-! SUPPORT. What a fault leaves of the state that a command or a step met, and when each of the faults is raised; with
the statements of 60_exceptions.md that rest on them. -/

namespace Sys2Proof.Machine

/-! ### A faulted state answers nothing, and no completed step leaves one (60_exceptions.md R150) -/

theorem exec_of_faulted {s : State} (i : Instr) (hf : s.fault ≠ none) : exec i s = .fault (.stuck s) := by
  cases i <;> exact whenRunning_of_faulted hf _

theorem fault_eq_none_of_step {s t : State} (h : step s = .next t) (hr : s.turns.head? ≠ some .reset) :
    s.fault = none := by
  by_contra hf
  cases (step_of_faulted hf hr).symm.trans h

theorem Effect.fault {i : Instr} {s t : State} (he : Effect i s t) : t.fault = s.fault := by
  cases he <;> simp

theorem step_keeps_fault {s t : State} (h : step s = .next t) (hr : s.turns.head? ≠ some .reset) :
    t.fault = s.fault :=
  rel_of_step (R := fun s t => t.fault = s.fault) SameBlock.fault (fun h h' => h'.trans h) Effect.fault h hr

theorem step_next_fault {s t : State} (h : step s = .next t) : t.fault = none := by
  by_cases hr : s.turns.head? = some .reset
  · obtain ⟨rest, hturn⟩ := List.head?_eq_some_iff.1 hr
    cases (step_of_reset hturn).symm.trans h
    rfl
  · rw [step_keeps_fault h hr, fault_eq_none_of_step h hr]

/-! ### A fault is precise (60_exceptions.md R150) -/

/-- If `r` raises a fault, it leaves `s` with its cause in the fault register and nothing else written. -/
def RaisesFrom (s : State) (r : Result) : Prop := ∀ c a, r = .fault (.raised c a) → a = s.setFault c.cause

theorem raisesFrom_raise (c : Raised) (s : State) : RaisesFrom s (raise c s) := fun _ _ h => (raise_eq_raised h).2

theorem raisesFrom_next (s t : State) : RaisesFrom s (.next t) := by
  simp [RaisesFrom]

theorem raisesFrom_refused (s : State) (r : Refusal) : RaisesFrom s (.refused r) := by
  simp [RaisesFrom]

theorem RaisesFrom.whenRunning {s u : State} {k : Result} (h : RaisesFrom s k) : RaisesFrom s (whenRunning u k) :=
  fun c a e => h c a (whenRunning_eq_raised e).2

theorem RaisesFrom.ite {s : State} {j k : Result} {p : Prop} [Decidable p] (hj : RaisesFrom s j) (hk : RaisesFrom s k) :
    RaisesFrom s (if p then j else k) := by
  split
  · exact hj
  · exact hk

theorem tickStep_raisesFrom (header : Word) (n N : Nat) (s : State) : RaisesFrom s (tickStep header n N s) := by
  rcases tickStep_cases header n N s with ⟨-, e⟩ | ⟨-, -, e⟩ | ⟨-, -, -, e⟩ | ⟨-, -, -, e⟩ <;> rw [e]
  · exact raisesFrom_raise _ s
  · exact raisesFrom_raise _ s
  · exact raisesFrom_raise _ s
  · exact raisesFrom_next s _

theorem batchTick_raisesFrom (n : Nat) (s : State) : RaisesFrom s (batchTick n s) := by
  unfold batchTick
  split
  · exact raisesFrom_next s _
  · next f e => exact e ▸ tickStep_raisesFrom _ _ _ _
  · exact raisesFrom_refused s _

theorem exec_raisesFrom (i : Instr) (s : State) : RaisesFrom s (exec i s) := by
  cases i with
  | setup m d c l => exact ((raisesFrom_raise _ s).ite (raisesFrom_next s _)).whenRunning
  | setdata bits => exact ((raisesFrom_raise _ s).ite (raisesFrom_next s _)).whenRunning
  | datasent => exact (raisesFrom_next s _).whenRunning
  | tick n => exact (tickStep_raisesFrom _ _ _ s).whenRunning
  | process => exact ((raisesFrom_next s s).ite (batchTick_raisesFrom 0 s)).whenRunning

theorem runCommand_raisesFrom (a : Agent) (ws : List Word) (s : State) : RaisesFrom s (runCommand a ws s) := by
  unfold runCommand
  split
  · exact raisesFrom_raise _ s
  · exact raisesFrom_refused s _
  · exact raisesFrom_refused s _
  · exact (raisesFrom_refused s _).ite (exec_raisesFrom _ s)
  · exact raisesFrom_refused s _

theorem hostTurn_raisesFrom (s : State) : ∃ r, SameBlock s r ∧ RaisesFrom r (hostTurn s) := by
  unfold hostTurn
  split
  · exact ⟨_, by constructor <;> rfl, batchTick_raisesFrom _ { s with issuer := .host }⟩
  · split
    · exact ⟨s, .refl s, raisesFrom_next s s⟩
    · exact ⟨_, sameBlock_takeHost s s.turns _ _, runCommand_raisesFrom _ _ _⟩

theorem writerTurn_raisesFrom (s : State) : ∃ r, SameBlock s r ∧ RaisesFrom r (writerTurn s) := by
  unfold writerTurn
  split
  · exact ⟨s, .refl s, raisesFrom_next s s⟩
  · exact ⟨_, sameBlock_takeWriter s s.turns _, runCommand_raisesFrom _ _ _⟩

/-- A step that faults raised its fault from a state that differs from the one it met in the command interface only. -/
theorem step_raisesFrom (s : State) : ∃ r, SameBlock s r ∧ RaisesFrom r (step s) := by
  unfold step stepOf
  split
  · exact ⟨s, .refl s, (raisesFrom_next s s).whenRunning⟩
  · exact ⟨s, .refl s, raisesFrom_next s _⟩
  · next rest _ =>
    obtain ⟨r, hr, hraise⟩ := hostTurn_raisesFrom { s with turns := rest }
    exact ⟨r, { hr with }, hraise.whenRunning⟩
  · next rest _ =>
    obtain ⟨r, hr, hraise⟩ := writerTurn_raisesFrom { s with turns := rest }
    exact ⟨r, { hr with }, hraise.whenRunning⟩

theorem step_eq_raised {s a : State} {c : Raised} (h : step s = .fault (.raised c a)) :
    ∃ r, SameBlock s r ∧ a = r.setFault c.cause :=
  let ⟨r, hr, hraise⟩ := step_raisesFrom s
  ⟨r, hr, hraise c a h⟩

/-- Settles O39: `exec_raisesFrom` and `step_eq_raised` say that a fault is precise, `step_next_fault` that no completed
step leaves a faulted state. -/
theorem faultIsPreciseAndAbsorbing : Obligations.FaultIsPreciseAndAbsorbing := by
  refine ⟨fun i s a c => exec_raisesFrom i s c a, fun i s => exec_of_faulted i, fun s => step_of_faulted,
    fun s t => step_next_fault, fun s c a h => ?_, fun s rest ht => ⟨_, step_of_reset ht, rfl⟩⟩
  obtain ⟨r, hr, rfl⟩ := step_eq_raised h
  exact ⟨rfl, hr.trace, hr.responses, ⟨hr.buf, hr.pending, hr.state, hr.cursor⟩, hr.params, hr.pins, hr.bound,
    hr.pinConfigured, hr.dirPending, hr.capacity⟩

/-! ### What is observed of a fault (60_exceptions.md R158, 00_scope.md R15) -/

theorem core_run_of_refused {s : State} {r : Refusal} (k : Nat) (h : step s = .refused r) :
    core.run (k + 1) s = .refused r := by
  have h' : core.step s = .refused r := h
  simp only [Host.Core.run, h']

theorem core_run_raised_fault {k : Nat} {s a : State} {c : Raised} (h : core.run k s = .fault (.raised c a)) :
    a.fault = some c.cause := by
  induction k generalizing s with
  | zero => cases h
  | succ k ih =>
    cases hs : step s with
    | next t => exact ih ((core_run_of_next k hs).symm.trans h)
    | fault f =>
      cases (core_run_of_fault k hs).symm.trans h
      obtain ⟨r, -, rfl⟩ := step_eq_raised hs
      rfl
    | refused r => cases (core_run_of_refused k hs).symm.trans h

/-- Settles O57: the faulted state has the outputs of the state the step met, and the cause of what was recorded. -/
theorem faultIsObservedWithItsRecord : Obligations.FaultIsObservedWithItsRecord := by
  refine ⟨fun s c a h => ?_, fun k s c a h => ?_, fun s t h => ?_⟩
  · obtain ⟨r, hr, rfl⟩ := step_eq_raised h
    simp [h, hr.trace, hr.responses]
  · rw [h]
    exact ⟨_, observation_raised c a, core_run_raised_fault h, rfl⟩
  · rw [h, observation_next, step_next_fault h]

/-! ### Before the first `SETUP` (60_exceptions.md R152) -/

/-- While no `SETUP` has completed no direction is configured or due, and the trace holds growth marks alone. -/
def State.QuietUntilBound (s : State) : Prop :=
  s.bound = false → s.dirPending = false ∧ s.pinConfigured = false ∧ ∀ e ∈ s.trace, e.isGrow = true

theorem quietUntilBound_of_bound {s : State} (h : s.bound = true) : s.QuietUntilBound := by
  simp [State.QuietUntilBound, h]

theorem quietUntilBound_of_reset {s : State} (hd : s.dirPending = false) (hp : s.pinConfigured = false)
    (ht : s.trace = []) : s.QuietUntilBound := fun _ => ⟨hd, hp, by simp [ht]⟩

theorem tickStep_next_bound {header : Word} {n N : Nat} {s t : State} (h : tickStep header n N s = .next t) :
    t.bound = true := by
  obtain ⟨hb, -, -, rfl⟩ := tickStep_eq_next h
  simpa using hb

theorem batchTick_next_bound {n : Nat} {s t : State} (h : batchTick n s = .next t) : t.bound = true := by
  obtain ⟨u, hu, rfl⟩ := batchTick_eq_next h
  have hb : u.bound = true := tickStep_next_bound hu
  exact hb

theorem State.QuietUntilBound.setdata {s : State} (h : s.QuietUntilBound) (bits : List Bool) :
    ((s.growFor bits).publish bits).QuietUntilBound := by
  intro hb
  obtain ⟨hd, hp, ht⟩ := h (by simpa using hb)
  refine ⟨by simpa using hd, by simpa using hp, ?_⟩
  rw [State.publish_trace, growFor_trace]
  exact List.forall_mem_append.2 ⟨ht, fun _ => growEvents_isGrow⟩

theorem exec_quietUntilBound {i : Instr} {s t : State} (hs : s.QuietUntilBound) (h : exec i s = .next t) :
    t.QuietUntilBound := by
  cases i with
  | setup m d c l =>
    obtain ⟨-, -, rfl⟩ := execSetup_eq_next h
    exact quietUntilBound_of_bound rfl
  | setdata bits =>
    obtain ⟨-, -, rfl⟩ := execSetdata_eq_next h
    exact hs.setdata bits
  | datasent =>
    obtain ⟨-, rfl⟩ := execDatasent_eq_next h
    exact hs
  | tick n => exact quietUntilBound_of_bound (tickStep_next_bound (whenRunning_eq_next h).2)
  | process =>
    obtain ⟨-, ⟨-, rfl⟩ | ⟨-, u, hu, rfl⟩⟩ := execProcess_eq_next h
    · exact hs
    · have hb : u.bound = true := tickStep_next_bound hu
      exact quietUntilBound_of_bound hb

theorem step_quietUntilBound {s t : State} (hs : s.QuietUntilBound) (h : step s = .next t) : t.QuietUntilBound := by
  rcases step_eq_next h with ⟨rest, -, rfl⟩ | ⟨-, ⟨-, rfl⟩ | ⟨rest, -, rfl⟩ | ⟨rest, n, -, -, hb⟩
    | ⟨rest, c, queue, i, -, -, -, -, he⟩ | ⟨rest, ws, queue, i, -, -, -, -, he⟩⟩
  · exact quietUntilBound_of_reset rfl rfl rfl
  · exact hs
  · exact hs
  · exact quietUntilBound_of_bound (batchTick_next_bound hb)
  · exact exec_quietUntilBound (by exact hs) he
  · exact exec_quietUntilBound (by exact hs) he

/-- Settles O50: a tick completes only on a bound block, and of the other commands only `SETDATA` emits. -/
theorem noPinEventBeforeSetup : Obligations.NoPinEventBeforeSetup :=
  ⟨quietUntilBound_of_reset rfl rfl rfl, fun _ _ hs h => step_quietUntilBound hs h⟩

/-! ### `LENGTH_LIMIT` (60_exceptions.md R155) -/

theorem exec_setup_overLimit {s : State} {m : Imm24} (d c l : PinId) (hf : s.fault = none)
    (hm : s.params.maxBits < m.toNat) :
    exec (.setup m d c l) s = raise (.lengthLimit (Instr.setup m d c l).header) s := by
  simp [exec, execSetup, whenRunning_of_running hf, (overLimit_iff s _).2 hm]

theorem exec_setdata_overLimit {s : State} {bits : List Bool} (hf : s.fault = none)
    (hl : s.params.maxBits < bits.length) :
    exec (.setdata bits) s = raise (.lengthLimit (Instr.setdata bits).header) s := by
  simp [exec, execSetdata, whenRunning_of_running hf, (overLimit_iff s _).2 hl]

/-- Settles O11: either command raises its own header, and nothing else is written. -/
theorem lengthLimitFaults : Obligations.LengthLimitFaults := fun _ hf =>
  ⟨fun _ d c l hm => exec_setup_overLimit d c l hf hm, fun _ hl => exec_setdata_overLimit hf hl, rfl⟩

/-! ### The faults of a tick (60_exceptions.md R152 to R154) -/

/-- A `PROCESS` raises what its first tick raises. -/
theorem exec_process_of_raise {s : State} {r : Raised} (hf : s.fault = none) (hN : 0 < s.frame)
    (h : tickStep Instr.process.header 0 s.frame s = raise r s) : exec .process s = raise r s :=
  (exec_process_of_frame_pos hf hN).trans (batchTick_of_raise h)

/-- The step that is a later tick of a `PROCESS` raises what that tick raises. -/
theorem step_of_batch_raise {s : State} {n : Nat} {rest : List Turn} {r : Raised} (hf : s.fault = none)
    (hb : s.batch = some n) (ht : s.turns = .host :: rest)
    (h : tickStep Instr.process.header n s.frame { s with turns := rest, issuer := .host }
      = raise r { s with turns := rest, issuer := .host }) :
    ∃ a, step s = .fault (.raised r a) ∧ a.fault = some r.cause :=
  ⟨_, (step_of_batch hf hb ht).trans (batchTick_of_raise h), rfl⟩

/-- Settles O19: the check for a bound block is the first a tick makes. -/
theorem notConfiguredFaults : Obligations.NotConfiguredFaults := fun _ hf hb =>
  ⟨fun n => (exec_tick_of_running n hf).trans (tickStep_unbound _ _ _ hb),
    fun hN => exec_process_of_raise hf hN (tickStep_unbound _ _ _ hb),
    fun _ _ hbatch ht => step_of_batch_raise hf hbatch ht (tickStep_unbound _ _ _ hb), rfl⟩

/-- Settles O20: the frame is checked before the transmission state. -/
theorem frameOutOfRangeFaults : Obligations.FrameOutOfRangeFaults := fun _ n hf hb hN =>
  ⟨(exec_tick_of_running n hf).trans (tickStep_outOfFrame _ hb hN), rfl⟩

/-- In Transmitting the invariant has the cursor below the buffer's end, unless the buffer is empty. -/
theorem State.Inv.empty_of_length_le {s : State} (h : s.Inv) (hs : s.state = .transmitting)
    (hl : s.buf.length ≤ s.cursor.toNat) : s.buf = [] ∧ s.cursor.toNat = 0 := by
  have hlen : s.buf.length = 0 := (h.transmitting hs).resolve_left (Nat.not_lt.2 hl)
  exact ⟨List.length_eq_zero_iff.1 hlen, Nat.le_zero.1 (hlen ▸ h.cursor_le)⟩

/-- Settles O21: the three kinds of tick raise what `tickStep_empty` says. -/
theorem emptyMessageFaults : Obligations.EmptyMessageFaults := by
  intro s hf hb hp hs hl
  have he : s.emptyAt = true := (emptyAt_iff s).2 ⟨hp, hs, hl⟩
  exact ⟨fun n hn => (exec_tick_of_running n hf).trans (tickStep_empty _ hb hn he),
    fun hN => exec_process_of_raise hf hN (tickStep_empty _ hb hN he),
    fun _ _ hbatch hn ht => step_of_batch_raise hf hbatch ht (tickStep_empty _ hb hn he),
    fun hinv => hinv.empty_of_length_le hs hl, rfl⟩

/-! ### `ILLEGAL_COMMAND` (60_exceptions.md R151) -/

/-- The `ILLEGAL` headers of 30_encoding.md R78 as numbers. -/
theorem decodeHeader_eq_none_iff (h : Word) :
    decodeHeader h = none ↔
      h.toNat % 16 = 0 ∨ 6 ≤ h.toNat % 16 ∨ h.toNat / 16 % 16 ≠ 0
        ∨ ((h.toNat % 16 = 3 ∨ h.toNat % 16 = 5) ∧ h.toNat / 256 ≠ 0) := by
  rw [decodeHeader_eq]
  split_ifs <;> simp only [true_iff, false_iff] <;> omega

/-- Settles O38: the header decodes to no form, and the step of either agent decodes the command first. -/
theorem illegalHeaderFaults : Obligations.IllegalHeaderFaults := by
  intro s h ps rest hf hi
  have hd : decodeHeader h = none := (decodeHeader_eq_none_iff h).2 hi
  refine ⟨fun N queue hb ht hq => ?_, fun queue ht hq => ?_, rfl⟩
  · rw [step_of_host hf ht, hostTurn_of_command (by exact hb) (by exact hq), runCommand_of_illegal _ _ _ hd]
    exact ⟨_, rfl, rfl⟩
  · rw [step_of_writer hf ht, writerTurn_of_command (by exact hq), runCommand_of_illegal _ _ _ hd]
    exact ⟨_, rfl, rfl⟩

end Sys2Proof.Machine

/-! SUPPORT. The values after reset, waiting, an empty message, runs that never grow the capacity, the commands still to
take effect, and whole batches of ticks; with the statements of 70_reset_and_hazards.md that rest on them. -/

namespace Sys2Proof.Machine

/-! ### Reset (70_reset_and_hazards.md R180) -/

/-- Settles O8: a reset turn resets the block, and the reset state is its own reset. -/
theorem resetValues : Obligations.ResetValues := by
  unfold Obligations.ResetValues
  intro atReset
  have hreset : ∀ s : State, atReset s.applyReset := fun _ =>
    ⟨rfl, rfl, rfl, rfl, rfl, rfl, rfl, rfl, rfl, rfl, rfl, rfl⟩
  exact ⟨hreset State.reset, fun _ _ ht => ⟨_, step_of_reset ht, hreset _, rfl⟩⟩

/-! ### Waiting (70_reset_and_hazards.md R181, log 5) -/

theorem step_of_no_turn {s : State} (hf : s.fault = none) (ht : s.turns = []) : step s = .next s := by
  simp [step, stepOf, ht, whenRunning_of_running hf]

theorem hostTurn_of_nothing {s : State} (hb : s.batch = none) (hq : s.hostQueue = []) : hostTurn s = .next s := by
  simp [hostTurn, hb, hq]

theorem writerTurn_of_nothing {s : State} (hq : s.writerQueue = []) : writerTurn s = .next s := by
  simp [writerTurn, hq]

/-- Settles O41. -/
theorem waitsForACommand : Obligations.WaitsForACommand := fun _ _ hf =>
  ⟨step_of_no_turn hf, fun ht hb hq => (step_of_host hf ht).trans (hostTurn_of_nothing hb hq),
    fun ht hq => (step_of_writer hf ht).trans (writerTurn_of_nothing hq)⟩

/-- Settles O9: the reset state is running, in Idle with nothing pending, and not bound. -/
theorem firstCommandAfterReset : Obligations.FirstCommandAfterReset := fun _ =>
  ⟨step_of_no_turn rfl rfl, ⟨_, exec_datasent_completes rfl, rfl⟩,
    fun n _ => ⟨_, (exec_tick_of_running n rfl).trans (tickStep_unbound _ _ _ rfl)⟩,
    fun _ hN => ⟨_, exec_process_of_raise rfl hN (tickStep_unbound _ _ _ rfl)⟩⟩

/-! ### An empty message (70_reset_and_hazards.md R192) -/

/-- Settles O17: the first tick adopts the empty message, and the second has no bit to transmit. -/
theorem emptyMessageFaultsOnSecondTick : Obligations.EmptyMessageFaultsOnSecondTick := by
  intro s n k hf hb hn hk
  have hset := exec_setdata_completes (s := s) (bits := []) hf (Nat.zero_le _)
  have htick := exec_tick_adopts (s := (s.growFor []).publish []) (n := n) (by simpa using hf) (by simpa using hb)
    (by simpa using hn) rfl
  refine ⟨_, (runCommands_of_next _ hset).trans (runCommands_of_next _ htick), rfl, rfl, ?_⟩
  exact (emptyMessageFaults _ (by simpa using hf) (by simpa using hb) rfl rfl (Nat.zero_le _)).1 k (by simpa using hk)

/-! ### A run that never grows (70_reset_and_hazards.md R183) -/

theorem noGrow_iff (es : List Event) : noGrow es = true ↔ ∀ e ∈ es, e.isGrow = false := by
  simp [noGrow]

theorem noGrow_append {es fs : List Event} (he : noGrow es = true) (hf : noGrow fs = true) :
    noGrow (es ++ fs) = true :=
  (noGrow_iff _).2 (List.forall_mem_append.2 ⟨(noGrow_iff es).1 he, (noGrow_iff fs).1 hf⟩)

theorem isGrow_of_isDirOut {e : Event} (h : e.isDirOut = true) : e.isGrow = false := by
  cases e with
  | dirOut => rfl
  | wr => cases h
  | clockPulse => cases h
  | grow => cases h

theorem noGrow_dueDirEvents (s : State) : noGrow s.dueDirEvents = true :=
  (noGrow_iff _).2 fun _ he => isGrow_of_isDirOut (dueDirEvents_isDirOut he)

theorem noGrow_protocolEvents (s : State) (n : Nat) : noGrow (s.protocolEvents n) = true := by
  refine (noGrow_iff _).2 fun e he => ?_
  obtain ⟨v, rfl⟩ | ⟨v, rfl⟩ | rfl := mem_protocolEvents he <;> rfl

/-- Only a `SETDATA` above the capacity marks growth (41_data_update.md R101). -/
theorem Effect.noGrow {i : Instr} {s t : State} (he : Effect i s t)
    (hi : ∀ bits, i = .setdata bits → bits.length ≤ s.capacity.toNat) :
    ∃ es, t.trace = s.trace ++ es ∧ noGrow es = true := by
  cases he with
  | setup => exact ⟨[], (List.append_nil _).symm, rfl⟩
  | setdata =>
    rw [growFor_of_le (hi _ rfl)]
    exact ⟨[], (List.append_nil _).symm, rfl⟩
  | datasent => exact ⟨[], (List.append_nil _).symm, rfl⟩
  | noTick => exact ⟨[], (List.append_nil _).symm, rfl⟩
  | tick n => exact ⟨_, tick_trace s n, noGrow_append (noGrow_dueDirEvents s) (noGrow_protocolEvents _ n)⟩

/-- Settles O16, by induction on the commands: none lowers the capacity, so it goes on covering every message. -/
theorem preSizedRunNeverGrows : Obligations.PreSizedRunNeverGrows := by
  intro cmds
  induction cmds with
  | nil =>
    rintro s t - ⟨⟩
    exact ⟨[], (List.append_nil _).symm, rfl⟩
  | cons i rest ih =>
    intro s t hcovers hrun
    obtain ⟨u, hu, hrest⟩ := runCommands_eq_next hrun
    obtain ⟨v, heffect, hsame⟩ := exec_effect hu
    obtain ⟨es, htrace, hes⟩ := heffect.noGrow fun bits hi => hcovers bits (by simp [hi])
    have hcapacity : s.capacity.toNat ≤ u.capacity.toNat := (heffect.onlyAdds.trans hsame.onlyAdds).capacity
    obtain ⟨fs, htrace', hfs⟩ := ih u t
      (fun bits hmem => (hcovers bits (List.mem_cons_of_mem i hmem)).trans hcapacity) hrest
    exact ⟨es ++ fs, by rw [htrace', hsame.trace, htrace, List.append_assoc], noGrow_append hes hfs⟩

/-! ### The commands still to take effect (70_reset_and_hazards.md R190) -/

/-- The two agents' issued commands are unchanged. -/
structure SameQueues (s t : State) : Prop where
  hostQueue : t.hostQueue = s.hostQueue
  writerQueue : t.writerQueue = s.writerQueue

theorem batchTick_sameQueues {n : Nat} {s t : State} (h : batchTick n s = .next t) : SameQueues s t := by
  obtain ⟨u, hu, rfl⟩ := batchTick_eq_next h
  obtain ⟨-, -, -, rfl⟩ := tickStep_eq_next hu
  constructor <;> simp

/-- No command issues or takes another. -/
theorem exec_sameQueues {i : Instr} {s t : State} (h : exec i s = .next t) : SameQueues s t := by
  by_cases hi : i = .process
  · subst hi
    obtain ⟨hf, ⟨-, rfl⟩ | ⟨hN, -⟩⟩ := execProcess_eq_next h
    · exact ⟨rfl, rfl⟩
    · rw [exec_process_of_frame_pos hf hN] at h
      exact batchTick_sameQueues h
  · have hsame := exec_sameInterface hi h
    exact ⟨hsame.hostQueue, hsame.writerQueue⟩

/-- A step adds no command: it takes the first of one queue at most. -/
theorem step_queues_suffix {s t : State} (h : step s = .next t) :
    t.hostQueue <:+ s.hostQueue ∧ t.writerQueue <:+ s.writerQueue := by
  rcases step_eq_next h with ⟨rest, -, rfl⟩ | ⟨-, ⟨-, rfl⟩ | ⟨rest, -, rfl⟩ | ⟨rest, n, -, -, hb⟩
    | ⟨rest, c, queue, i, -, -, hq, -, he⟩ | ⟨rest, ws, queue, i, -, hq, -, -, he⟩⟩
  · exact ⟨List.suffix_rfl, List.suffix_rfl⟩
  · exact ⟨List.suffix_rfl, List.suffix_rfl⟩
  · exact ⟨List.suffix_rfl, List.suffix_rfl⟩
  · obtain ⟨hhost, hwriter⟩ := batchTick_sameQueues hb
    simp [hhost, hwriter]
  · obtain ⟨hhost, hwriter⟩ := exec_sameQueues he
    simp [hhost, hwriter, hq]
  · obtain ⟨hhost, hwriter⟩ := exec_sameQueues he
    simp [hhost, hwriter, hq]

theorem oneWriter_iff (s : State) :
    s.oneWriter = true ↔
      (∀ c ∈ s.hostQueue, isSetdata c.words = false) ∨ ∀ ws ∈ s.writerQueue, isSetdata ws = false := by
  simp [State.oneWriter]

/-- Settles O51: an agent with no `SETDATA` to come has none after a step, which adds no command. -/
theorem oneWriterIsKept : Obligations.OneWriterIsKept := by
  intro s t hone h
  obtain ⟨hhost, hwriter⟩ := step_queues_suffix h
  rw [oneWriter_iff] at hone ⊢
  exact hone.imp (fun hs c hc => hs c (hhost.subset hc)) fun hs ws hws => hs ws (hwriter.subset hws)

/-! ### Batches until Idle (70_reset_and_hazards.md R194) -/

/-- The block after `k` ticks of the message `bits`: before the first it is pending, the first begins to send it, and
`bits.length + 2` or more of them leave the block at rest (42_process.md R132). -/
inductive State.AfterTicks (bits : List Bool) : Nat → State → Prop where
  | pending {s : State} (hf : s.fault = none) (hb : s.bound = true) (hp : s.pending = some bits)
      (hfits : bits.length ≤ s.params.maxBits) (hpos : 0 < bits.length) : AfterTicks bits 0 s
  | sending {s : State} {pins : Pins} {params : Params} {k : Nat} (h : s.Sending pins params bits k)
      (hk : k ≤ bits.length) : AfterTicks bits (k + 1) s
  | resting {s : State} {k : Nat} (h : s.Resting) (hk : bits.length + 2 ≤ k) : AfterTicks bits k s

theorem tickStep_next_fault {header : Word} {n N : Nat} {s t : State} (h : tickStep header n N s = .next t) :
    t.fault = s.fault := by
  obtain ⟨-, -, -, rfl⟩ := tickStep_eq_next h
  simp

theorem State.Resting.tickStep {s : State} (h : s.Resting) (header : Word) {n N : Nat} (hn : n < N) :
    tickStep header n N s = .next s.configureDirection := by
  rw [tickStep_completes header h.bound hn (emptyAt_of_state_ne (by simp [h.idle])), tick_of_idle n h.pending h.idle]

section
variable {bits : List Bool} {k : Nat} {s : State} (h : s.AfterTicks bits k)
include h

/-- Every tick in its frame completes and is one tick more of the message. -/
theorem State.AfterTicks.tickStep (header : Word) {n N : Nat} (hn : n < N) :
    ∃ t, tickStep header n N s = .next t ∧ t.AfterTicks bits (k + 1) := by
  cases h with
  | pending hf hb hp hfits hpos =>
    obtain ⟨t, ht, hsend, -⟩ := tickStep_adopts header hf hb hp hfits hpos hn
    exact ⟨t, ht, .sending hsend (Nat.zero_le _)⟩
  | sending hsend hk =>
    obtain hlt | rfl := hk.lt_or_eq
    · obtain ⟨t, ht, hsend', -⟩ := hsend.tickStep_shifts header hn hlt
      exact ⟨t, ht, .sending hsend' hlt⟩
    · obtain ⟨t, ht, hidle, hpending, -⟩ := hsend.tickStep_stops header hn
      have hrunning : t.fault = none := (tickStep_next_fault ht).trans hsend.running
      exact ⟨t, ht, .resting ⟨hrunning, tickStep_next_bound ht, hidle, hpending⟩ le_rfl⟩
  | resting hrest hk => exact ⟨_, hrest.tickStep header hn, .resting hrest.configureDirection (Nat.le_succ_of_le hk)⟩

theorem State.AfterTicks.tickSequence {n count N : Nat} (hN : n + count ≤ N) :
    ∃ t, tickSequence N n count s = .next t ∧ t.AfterTicks bits (k + count) := by
  induction count generalizing n k s with
  | zero => exact ⟨s, rfl, h⟩
  | succ count ih =>
    obtain ⟨u, hu, hafter⟩ := h.tickStep Instr.process.header (n := n) (N := N) (by omega)
    obtain ⟨t, ht, hafter'⟩ := ih hafter (n := n + 1) (by omega)
    exact ⟨t, (tickSequence_of_next count hu).trans ht, by rwa [Nat.add_right_comm] at hafter'⟩

theorem State.AfterTicks.runBatches (N b : Nat) :
    ∃ t, runBatches N b s = .next t ∧ t.AfterTicks bits (k + N * b) := by
  induction b generalizing k s with
  | zero => exact ⟨s, rfl, h⟩
  | succ b ih =>
    obtain ⟨u, hu, hafter⟩ := h.tickSequence (n := 0) (Nat.zero_add N).le
    obtain ⟨t, ht, hafter'⟩ := ih hafter
    refine ⟨t, (runBatches_of_next b hu).trans ht, ?_⟩
    rwa [Nat.mul_succ, Nat.add_comm (N * b), ← Nat.add_assoc]

/-- dataSent is 1 from the last of the message's `L + 2` ticks on (42_process.md R136). -/
theorem State.AfterTicks.dataSent_iff : s.dataSent = true ↔ bits.length + 2 ≤ k := by
  cases h with
  | pending _ _ hp => simp [dataSent_of_pending hp]
  | sending hsend hk => simpa [hsend.dataSent] using hk
  | resting hrest hk => simp [State.dataSent, hrest.idle, hrest.pending, hk]

end

/-- Settles O56: `b` batches are `N * b` ticks, and `ceil((L + 2)/N)` is the least `b` for which they are `L + 2`. -/
theorem batchesUntilIdle : Obligations.BatchesUntilIdle := by
  intro s bits N hinv hf hb hp hpos hN
  have hbatches (b : Nat) :
      ∃ t, runBatches N b s = .next t ∧ (t.dataSent = true ↔ (bits.length + 2 + N - 1) / N ≤ b) := by
    obtain ⟨t, ht, hafter⟩ :=
      (State.AfterTicks.pending hf hb hp (hinv.pending_fits hp) hpos).runBatches N b
    refine ⟨t, ht, ?_⟩
    rw [hafter.dataSent_iff, Nat.zero_add, ← Nat.ceilDiv_eq_add_pred_div, ceilDiv_le_iff_le_mul hN]
  refine ⟨?_, fun b hlt => ?_⟩
  · obtain ⟨t, ht, hsent⟩ := hbatches ((bits.length + 2 + N - 1) / N)
    exact ⟨t, ht, hsent.2 le_rfl⟩
  · obtain ⟨t, ht, hsent⟩ := hbatches b
    exact ⟨t, ht, Bool.eq_false_iff.2 (mt hsent.1 hlt.not_ge)⟩

end Sys2Proof.Machine
